-- ==== Sys2Proof/Word.lean ====
section
/-! DEFINITION. The containers of the block: byte, Word (4 bytes), Block (16 bytes as 4 Words), Schedule (11 Blocks).
A multi-byte value is an ordered sequence of bytes, never a number (R19), so none of them is a bit vector. -/

namespace Sys2Proof

/-- A byte; bit 0 is the least significant (R5). -/
abbrev Byte := BitVec 8

/-- A Word: "4 bytes, ordered", `(v0,v1,v2,v3)` (R63). -/
structure Word where
  b0 : Byte
  b1 : Byte
  b2 : Byte
  b3 : Byte
  deriving DecidableEq, Repr

/-- A Block: "16 bytes arranged as 4 Words (word i = bytes [4i, 4i+3])" (R64). -/
structure Block where
  w0 : Word
  w1 : Word
  w2 : Word
  w3 : Word
  deriving DecidableEq, Repr

/-- A round-key schedule: "an ordered sequence of exactly 11 Blocks" (R7). -/
structure Schedule where
  k0 : Block
  k1 : Block
  k2 : Block
  k3 : Block
  k4 : Block
  k5 : Block
  k6 : Block
  k7 : Block
  k8 : Block
  k9 : Block
  k10 : Block
  deriving DecidableEq, Repr

/-- The Word of four bytes 0x00. -/
def Word.zero : Word := ⟨0, 0, 0, 0⟩

/-- The Block of sixteen bytes 0x00. -/
def Block.zero : Block := ⟨Word.zero, Word.zero, Word.zero, Word.zero⟩

/-- The schedule of 176 bytes 0x00. -/
def Schedule.zero : Schedule :=
  ⟨Block.zero, Block.zero, Block.zero, Block.zero, Block.zero, Block.zero, Block.zero, Block.zero, Block.zero,
    Block.zero, Block.zero⟩

/-- The bytes of a Word in index order (R19). -/
def Word.bytes (w : Word) : List Byte := [w.b0, w.b1, w.b2, w.b3]

/-- The bytes of a Block in index order, word 0 first (R19, R64). -/
def Block.bytes (b : Block) : List Byte := b.w0.bytes ++ b.w1.bytes ++ b.w2.bytes ++ b.w3.bytes

/-- The bytes of a schedule: `RK[0] ‖ RK[1] ‖ ... ‖ RK[10]` (R19). -/
def Schedule.bytes (k : Schedule) : List Byte :=
  k.k0.bytes ++ k.k1.bytes ++ k.k2.bytes ++ k.k3.bytes ++ k.k4.bytes ++ k.k5.bytes ++ k.k6.bytes ++ k.k7.bytes ++
    k.k8.bytes ++ k.k9.bytes ++ k.k10.bytes

end Sys2Proof
end

