-- ==== Sys2Proof/Config.lean ====
section
/-! DEFINITION. The two open parameters of a build (R3, D12, D17) and the free value of the environment (R107). -/

namespace Sys2Proof

/-- The parameters of one build of the block. State holds one value of this type, which no step changes
(log entries 1 and 2). -/
structure Config where
  /-- `CHAINING_EN`: whether CBCIV and CBCENC exist (R100, D17). -/
  chainingEn : Bool
  /-- `TRACE_EN`: whether the trace events are recorded (R98, D12). -/
  traceEn : Bool
  deriving DecidableEq, Repr

/-- The build State.reset describes: `CHAINING_EN` has the spec's default true (R3); `TRACE_EN` has none, true is
this model's DESIGN CHOICE (log entry 2). -/
def Config.default : Config := ⟨true, true⟩

/-- The sink's answer to one 16-byte write (R107). -/
inductive SinkAnswer where
  | accept
  | reject
  deriving DecidableEq, Repr, Inhabited

/-- The FREE VALUE of the environment: the sink's answer to the write with this number, where State gives none.
"The answer is an input from the environment: the block cannot predict it" (R107); nothing constrains it
(log entry 7). -/
opaque Config.freeSinkAnswer : Nat → SinkAnswer

end Sys2Proof
end

