-- ==== Sys2Proof/Syntax.lean ====
section
/-! DEFINITION. The 27 commands (R36), the twelve packet formats (R35) and the six error classes (R34). -/

namespace Sys2Proof

/-- The error classes (R34, R112). -/
inductive Err where
  | sizeMismatch
  | invalidIndex
  | sinkFailure
  | illegalCommand
  | noKey
  | noIv
  deriving DecidableEq, Repr

/-- The packet formats (R35). -/
inductive Format where
  | Z
  | B1
  | B2
  | R1
  | W
  | WI
  | WW
  | K
  | KI
  | KK
  | S
  | V
  deriving DecidableEq, Repr

/-- A command with its operands, one constructor per row of the opcode map (R36). Index and count operands
are the raw byte of the packet, since a value out of range is an error of the command (R38, R112). -/
inductive Instr where
  /-- Read STATUS and ERR (R110). -/
  | stat
  /-- Field addition (R52). -/
  | gfadd (a b : Byte)
  /-- Field multiplication (R53). -/
  | gfmul (a b : Byte)
  /-- Field power, `n` = 0 reserved (R54). -/
  | gfpow (a n : Byte)
  /-- Field inverse (R55). -/
  | gfinv (a : Byte)
  /-- Bit accessor (R56). -/
  | gfbit (a i : Byte)
  /-- Forward substitution (R61). -/
  | sboxf (c : Byte)
  /-- Inverse substitution (R62). -/
  | sboxi (s : Byte)
  /-- RotWord (R71). -/
  | rotw (w : Word)
  /-- SubWord (R72). -/
  | subw (w : Word)
  /-- Word XOR Word (R73). -/
  | xorw (w1 w2 : Word)
  /-- Word XOR 32-bit constant (R74). -/
  | xorwc (w : Word) (c : BitVec 32)
  /-- Word byte accessor (R75). -/
  | wbyte (w : Word) (i : Byte)
  /-- Block word view (R76). -/
  | bword (blk : Block) (i : Byte)
  /-- Block XOR into a buffer (R77). -/
  | bxor (blk buf : Block)
  /-- Expand a key into the round-key file (R80). -/
  | keyexp (key : Block)
  /-- Load a whole schedule (R81). -/
  | rkld (sched : Schedule)
  /-- Read one round key (R82). -/
  | rkrd (r : Byte)
  /-- Load the state register (R89). -/
  | stld (blk : Block)
  /-- Read the state register (R90). -/
  | strd
  /-- AddRoundKey on the state register (R91). -/
  | ark (r : Byte)
  /-- SubBytes on the state register (R92). -/
  | subb
  /-- ShiftRows on the state register (R93). -/
  | shrow
  /-- MixColumns on the state register (R94). -/
  | mixc
  /-- Encrypt one block (R99). -/
  | enc (blk : Block)
  /-- Set the chaining value to an IV (R108). -/
  | cbciv (iv : Block)
  /-- Encrypt a stream, chained and padded (R109). -/
  | cbcenc (data : List Byte)
  deriving DecidableEq, Repr

end Sys2Proof
end

