-- ==== Sys2Proof/WellFormed.lean ====
section
/-! DEFINITION. When a command is well formed: checks 1, 3 and 4 of R115 pass ("checks on the packet alone", D5), so
that it does not depend on the block's registers. Check 2, the length, is met by every term of Instr. -/

namespace Sys2Proof

/-- The command exists in this build (R37: 0x70 and 0x71 are reserved when `CHAINING_EN` is false). -/
def Instr.exists? (cfg : Config) : Instr → Bool
  | .cbciv _ | .cbcenc _ => cfg.chainingEn
  | _ => true

/-- No reserved operand value: GFPOW with `n` = 0 is reserved (R38). -/
def Instr.operandsAssigned : Instr → Bool
  | .gfpow _ n => n != 0
  | _ => true

/-- Every index operand is in its domain: bit index 0..7, word-byte index and word index 0..3, round-key index 0..10
(R112). -/
def Instr.indicesInRange : Instr → Bool
  | .gfbit _ i => decide (i.toNat ≤ 7)
  | .wbyte _ i | .bword _ i => decide (i.toNat ≤ 3)
  | .rkrd r | .ark r => decide (r.toNat ≤ 10)
  | _ => true

/-- The structural checks of R115 pass. -/
def Instr.wellFormed (cfg : Config) (i : Instr) : Bool :=
  i.exists? cfg && i.operandsAssigned && i.indicesInRange

end Sys2Proof
end

