-- ==== Sys2Proof/Decode.lean ====
section
/-! DEFINITION. The command encoding: formats by byte offset (R35), the opcode map (R36), the decoder (R37, R39, R40),
and the encoder written from the same tables. The decoder answers on any byte sequence: a command, or the error class
the packet is rejected with. -/

namespace Sys2Proof

/-! ### Fields at fixed offsets of a payload (R35) -/

/-- `payload[off]`. The decoder reads it only inside a payload whose length it has checked. -/
def byteAt (p : List Byte) (off : Nat) : Byte := p.getD off 0

/-- The Word at `payload[off .. off+3]`, in index order (R19). -/
def wordAt (p : List Byte) (off : Nat) : Word :=
  ⟨byteAt p off, byteAt p (off + 1), byteAt p (off + 2), byteAt p (off + 3)⟩

/-- The Block at `payload[off .. off+15]`. -/
def blockAt (p : List Byte) (off : Nat) : Block :=
  ⟨wordAt p off, wordAt p (off + 4), wordAt p (off + 8), wordAt p (off + 12)⟩

/-- The schedule of format S: `sched[16r..16r+15]` is round key `r` (R35, R81). -/
def scheduleAt (p : List Byte) : Schedule :=
  ⟨blockAt p 0, blockAt p 16, blockAt p 32, blockAt p 48, blockAt p 64, blockAt p 80, blockAt p 96, blockAt p 112,
    blockAt p 128, blockAt p 144, blockAt p 160⟩

/-- The number a Word carries least significant byte first: `v0 + 256·v1 + 65536·v2 + 16777216·v3` (R20, R74). -/
def leConst (w : Word) : BitVec 32 :=
  BitVec.ofNat 32 (w.b0.toNat + 256 * w.b1.toNat + 65536 * w.b2.toNat + 16777216 * w.b3.toNat)

/-- The Word `(c & 0xFF, (c>>8) & 0xFF, (c>>16) & 0xFF, (c>>24) & 0xFF)` of a 32-bit constant (R20). -/
def constWord (c : BitVec 32) : Word :=
  ⟨c.truncate 8, (c >>> 8).truncate 8, (c >>> 16).truncate 8, (c >>> 24).truncate 8⟩

/-! ### Formats (R35) -/

/-- The payload length `L` a format fixes; format V takes every length (R35). -/
def Format.length? : Format → Option Nat
  | .Z => some 0
  | .B1 => some 1
  | .B2 => some 2
  | .R1 => some 1
  | .W => some 4
  | .WI => some 5
  | .WW => some 8
  | .K => some 16
  | .KI => some 17
  | .KK => some 32
  | .S => some 176
  | .V => none

/-- Whether a payload of this length has the format (R39). -/
def Format.accepts (f : Format) (len : Nat) : Bool :=
  match f.length? with
  | some n => len == n
  | none => true

/-! ### Opcode map (R36) -/

/-- The row of the opcode map for an opcode byte: the format, and how the command reads its payload. `none`: reserved
(R37). -/
def opcodeRow (op : Byte) : Option (Format × (List Byte → Instr)) :=
  match op with
  | 0x01#8 => some (.Z, fun _ => .stat)
  | 0x10#8 => some (.B2, fun p => .gfadd (byteAt p 0) (byteAt p 1))
  | 0x11#8 => some (.B2, fun p => .gfmul (byteAt p 0) (byteAt p 1))
  | 0x12#8 => some (.B2, fun p => .gfpow (byteAt p 0) (byteAt p 1))
  | 0x13#8 => some (.B1, fun p => .gfinv (byteAt p 0))
  | 0x14#8 => some (.B2, fun p => .gfbit (byteAt p 0) (byteAt p 1))
  | 0x20#8 => some (.B1, fun p => .sboxf (byteAt p 0))
  | 0x21#8 => some (.B1, fun p => .sboxi (byteAt p 0))
  | 0x30#8 => some (.W, fun p => .rotw (wordAt p 0))
  | 0x31#8 => some (.W, fun p => .subw (wordAt p 0))
  | 0x32#8 => some (.WW, fun p => .xorw (wordAt p 0) (wordAt p 4))
  | 0x33#8 => some (.WW, fun p => .xorwc (wordAt p 0) (leConst (wordAt p 4)))
  | 0x34#8 => some (.WI, fun p => .wbyte (wordAt p 0) (byteAt p 4))
  | 0x35#8 => some (.KI, fun p => .bword (blockAt p 0) (byteAt p 16))
  | 0x36#8 => some (.KK, fun p => .bxor (blockAt p 0) (blockAt p 16))
  | 0x40#8 => some (.K, fun p => .keyexp (blockAt p 0))
  | 0x41#8 => some (.S, fun p => .rkld (scheduleAt p))
  | 0x42#8 => some (.R1, fun p => .rkrd (byteAt p 0))
  | 0x50#8 => some (.K, fun p => .stld (blockAt p 0))
  | 0x51#8 => some (.Z, fun _ => .strd)
  | 0x52#8 => some (.R1, fun p => .ark (byteAt p 0))
  | 0x53#8 => some (.Z, fun _ => .subb)
  | 0x54#8 => some (.Z, fun _ => .shrow)
  | 0x55#8 => some (.Z, fun _ => .mixc)
  | 0x60#8 => some (.K, fun p => .enc (blockAt p 0))
  | 0x70#8 => some (.K, fun p => .cbciv (blockAt p 0))
  | 0x71#8 => some (.V, fun p => .cbcenc p)
  | _ => none

/-- Whether the opcode is one of the chaining layer's, reserved when `CHAINING_EN` is false (R37, R100). -/
def chainingOpcode (op : Byte) : Bool := op == 0x70#8 || op == 0x71#8

/-- The opcode map of a build (R37). -/
def assignedRow (cfg : Config) (op : Byte) : Option (Format × (List Byte → Instr)) :=
  if chainingOpcode op && !cfg.chainingEn then none else opcodeRow op

/-- The decoder: checks 1 and 2 of R40 on a whole packet. Checks 3 to 5 are the command's own (log entry 11). -/
def decode (cfg : Config) (packet : List Byte) : Except Err Instr :=
  match packet with
  | [] => .error .illegalCommand
  | op :: payload =>
    match assignedRow cfg op with
    | none => .error .illegalCommand
    | some row => if row.1.accepts payload.length then .ok (row.2 payload) else .error .sizeMismatch

/-! ### Encoder -/

/-- The opcode byte of a command (R36). -/
def Instr.opcode : Instr → Byte
  | .stat => 0x01
  | .gfadd _ _ => 0x10
  | .gfmul _ _ => 0x11
  | .gfpow _ _ => 0x12
  | .gfinv _ => 0x13
  | .gfbit _ _ => 0x14
  | .sboxf _ => 0x20
  | .sboxi _ => 0x21
  | .rotw _ => 0x30
  | .subw _ => 0x31
  | .xorw _ _ => 0x32
  | .xorwc _ _ => 0x33
  | .wbyte _ _ => 0x34
  | .bword _ _ => 0x35
  | .bxor _ _ => 0x36
  | .keyexp _ => 0x40
  | .rkld _ => 0x41
  | .rkrd _ => 0x42
  | .stld _ => 0x50
  | .strd => 0x51
  | .ark _ => 0x52
  | .subb => 0x53
  | .shrow => 0x54
  | .mixc => 0x55
  | .enc _ => 0x60
  | .cbciv _ => 0x70
  | .cbcenc _ => 0x71

/-- The format of a command (R36). -/
def Instr.format : Instr → Format
  | .stat | .strd | .subb | .shrow | .mixc => .Z
  | .gfinv _ | .sboxf _ | .sboxi _ => .B1
  | .gfadd _ _ | .gfmul _ _ | .gfpow _ _ | .gfbit _ _ => .B2
  | .rkrd _ | .ark _ => .R1
  | .rotw _ | .subw _ => .W
  | .wbyte _ _ => .WI
  | .xorw _ _ | .xorwc _ _ => .WW
  | .keyexp _ | .stld _ | .cbciv _ | .enc _ => .K
  | .bword _ _ => .KI
  | .bxor _ _ => .KK
  | .rkld _ => .S
  | .cbcenc _ => .V

/-- The number of result bytes `M` of a successful command (R35). -/
def Instr.resultLength : Instr → Nat
  | .stat => 2
  | .gfadd _ _ | .gfmul _ _ | .gfpow _ _ | .gfinv _ | .gfbit _ _ | .sboxf _ | .sboxi _ | .wbyte _ _ => 1
  | .rotw _ | .subw _ | .xorw _ _ | .xorwc _ _ | .bword _ _ => 4
  | .bxor _ _ | .rkrd _ | .strd | .enc _ => 16
  | .keyexp _ | .rkld _ | .stld _ | .ark _ | .subb | .shrow | .mixc | .cbciv _ | .cbcenc _ => 0

/-- The payload bytes of a command, fields in the order of its format (R35). -/
def Instr.payload : Instr → List Byte
  | .stat | .strd | .subb | .shrow | .mixc => []
  | .gfinv a => [a]
  | .sboxf c => [c]
  | .sboxi s => [s]
  | .gfadd a b => [a, b]
  | .gfmul a b => [a, b]
  | .gfpow a n => [a, n]
  | .gfbit a i => [a, i]
  | .rkrd r => [r]
  | .ark r => [r]
  | .rotw w => w.bytes
  | .subw w => w.bytes
  | .wbyte w i => w.bytes ++ [i]
  | .xorw w1 w2 => w1.bytes ++ w2.bytes
  | .xorwc w c => w.bytes ++ (constWord c).bytes
  | .keyexp key => key.bytes
  | .stld blk => blk.bytes
  | .cbciv iv => iv.bytes
  | .enc blk => blk.bytes
  | .bword blk i => blk.bytes ++ [i]
  | .bxor blk buf => blk.bytes ++ buf.bytes
  | .rkld sched => sched.bytes
  | .cbcenc data => data

/-- The packet of a command: the opcode byte, then the payload (R32). -/
def encode (i : Instr) : List Byte := i.opcode :: i.payload

/-! ### The opcode table's numbering of an instruction's bits -/

/-- The first `n` bytes of a number, least significant byte first. -/
def bytesOfNat : Nat → Nat → List Byte
  | 0, _ => []
  | n + 1, w => BitVec.ofNat 8 w :: bytesOfNat n (w / 256)

/-- The packet whose first `nbits` bits are `w`, bit 0 the least significant of byte 0, every further byte up to the
length of the opcode's format 0x00. Format V has no length of its own: no byte follows (log entry 9). -/
def tablePacket (nbits w : Nat) : List Byte :=
  let given := bytesOfNat (nbits / 8) w
  let full := match opcodeRow (byteAt given 0) with
    | some row => 1 + (row.1.length?).getD 0
    | none => 0
  given ++ List.replicate (full - given.length) 0

/-- The instruction the decoder reads from that packet, in the build of State.reset. -/
def decodeTableWord (nbits w : Nat) : Option Instr :=
  match decode Config.default (tablePacket nbits w) with
  | .ok i => some i
  | .error _ => none

end Sys2Proof
end

