-- ==== Sys2Proof/Machine/State.lean ====
section
/-! DEFINITION. Everything the block holds (R6), what stands at its ports (R32, R33, R98, R107), and the state after
reset (R122). State is plain data. -/

namespace Sys2Proof.Machine

/-- Why a step could stop with a fault: there is no reason. Every error of the block is a response, after which the
next command is taken (R118: "every packet gets exactly one response"), so no step raises a fault. Safe: nothing is
left out (log entry 15). -/
inductive Fault where
  deriving DecidableEq, Repr

/-- Why a step could refuse an instruction. -/
inductive Refusal where
  /-- Raised by an arm of exec whose instruction has no meaning yet; no arm raises it now. Safe. -/
  | notModelled (mnemonic : String)
  deriving DecidableEq, Repr

/-- What the environment does at the block's inputs: it delivers a whole packet on the command port (R32), or resets
the block (R123), between commands or in the middle of one. -/
inductive HostEvent where
  /-- A packet, its bytes in order; an empty list is the packet with no opcode byte (R32). -/
  | packet (bytes : List Byte)
  /-- A reset while no command is running (R123). -/
  | reset
  /-- A reset while the command of this packet runs, after `writes` sink writes of the command and `traces` further
  trace events have left the block (R123, log entry 8). -/
  | resetDuring (bytes : List Byte) (writes traces : Nat)
  deriving DecidableEq, Repr

/-- Which stage a trace event reports (R98). -/
inductive Stage where
  | ark
  | subb
  | shrow
  | mixc
  deriving DecidableEq, Repr

/-- A trace event: the triple `(round, step, view)` (R98). -/
structure TraceEvent where
  /-- The value of `RND`. -/
  round : BitVec 4
  /-- The stage that has just been applied. -/
  step : Stage
  /-- `ST` after the stage, in internal order. -/
  view : Block
  deriving DecidableEq, Repr

/-- One thing that leaves the block. -/
inductive PortOut where
  /-- A response packet: the status byte, then the result bytes (R33). -/
  | response (packet : List Byte)
  /-- A 16-byte block offered to the sink, with the sink's answer; accepted means delivered (R107). -/
  | sinkWrite (block : Block) (answer : SinkAnswer)
  /-- A trace event (R98). -/
  | trace (event : TraceEvent)
  deriving DecidableEq, Repr

/-- The whole state: the architectural registers of R6, the parameters of the build, and the ports. -/
structure State where
  /-- `RK`, the round-key file (R7). -/
  rk : Schedule
  /-- `KV`: `RK` has been written since reset (R8). -/
  kv : Bool
  /-- `ST`, the state register, in internal (row-major) order (R9). -/
  st : Block
  /-- `RND`, the round counter, 0 outside a running encryption (R11). -/
  rnd : BitVec 4
  /-- `CV`, the chaining value, in external order (R10). -/
  cv : Block
  /-- `CVV`: CBCIV has written `CV` since reset (R10). -/
  cvv : Bool
  /-- `ERR`, the sticky error summary (R13). -/
  err : BitVec 8
  /-- The parameters of the build (R3); no step changes them. -/
  cfg : Config
  /-- What the environment will do next at the inputs, first event first (R28, R32, R123). -/
  cmdIn : List HostEvent
  /-- What has left the response, sink and trace ports, oldest first (R33, R98, R107). -/
  out : List PortOut
  /-- The model's own: the sink's answers by the number of the write, as far as the environment gives them (R107). -/
  sinkAnswers : List SinkAnswer
  /-- The model's own: how many writes have been offered to the sink; it numbers the answers (R107). -/
  sinkCount : Nat
  deriving DecidableEq, Repr

/-- The machine right after reset (R122). `RK` and `CV` are unspecified there; zeros are this model's DESIGN CHOICE
(log entries 3 and 4), `cfg` is Config.default (log entries 1 and 2), the ports are idle. -/
def State.reset : State where
  rk := Schedule.zero
  kv := false
  st := Block.zero
  rnd := 0
  cv := Block.zero
  cvv := false
  err := 0x00
  cfg := Config.default
  cmdIn := []
  out := []
  sinkAnswers := []
  sinkCount := 0

end Sys2Proof.Machine
end

