-- ==== Sys2Proof/Machine/Flags.lean ====
section
/-! DEFINITION. The block's flag-like state (R12): the status codes, the sticky summary `ERR` (R13) and the view
`STATUS` (R14). There are no arithmetic flags. -/

namespace Sys2Proof.Machine

/-- The status byte of a successful command (R34). -/
def statusOk : Byte := 0x00

/-- The status byte of an error class (R34). -/
def errCode : Err → Byte
  | .sizeMismatch => 0x01
  | .invalidIndex => 0x02
  | .sinkFailure => 0x03
  | .illegalCommand => 0x04
  | .noKey => 0x05
  | .noIv => 0x06

/-- The number of the `ERR` bit a status code sets: bit `k-1` for code `k` (R13). -/
def errBit (e : Err) : Nat := (errCode e).toNat - 1

/-- `ERR` after an error of this class: its bit set, every other bit as it was (R13). -/
def stickyErr (err : BitVec 8) (e : Err) : BitVec 8 := err ||| (1#8 <<< errBit e)

/-- `STATUS`: bit 0 = `KV`, bit 1 = `CVV` (0 if `CHAINING_EN` is false), bits 7..2 = 0 (R14). -/
def statusView (s : State) : Byte :=
  (if s.kv then 0x01 else 0x00) ||| (if s.cvv && s.cfg.chainingEn then 0x02 else 0x00)

end Sys2Proof.Machine
end

