-- ==== Sys2Proof/Machine/Operands.lean ====
section
/-! DEFINITION. The operand forms: index operands with their domains (R112), and the byte, word and block views of the
containers by index (R63, R64, R69, R83). -/

namespace Sys2Proof.Machine

/-- An index operand, an unsigned byte, in the domain 0..n-1; `none` outside it (R112: InvalidIndex). -/
def indexOperand (n : Nat) (i : Byte) : Option (Fin n) :=
  if h : i.toNat < n then some ⟨i.toNat, h⟩ else none

/-- Byte `i` of a Word (R63). -/
def wordByte (w : Word) : Fin 4 → Byte
  | 0 => w.b0
  | 1 => w.b1
  | 2 => w.b2
  | 3 => w.b3

/-- `WordOf(B, i)`: bytes `[4i..4i+3]` of a Block (R69). -/
def wordOf (b : Block) : Fin 4 → Word
  | 0 => b.w0
  | 1 => b.w1
  | 2 => b.w2
  | 3 => b.w3

/-- Byte `4r + c` of a Block: row `r`, column `c` of the state in internal order, byte `c` of word `r` (R64, R83). -/
def byteOf (b : Block) (r c : Fin 4) : Byte := wordByte (wordOf b r) c

/-- The Block whose byte `4r + c` is `f r c`. -/
def blockOf (f : Fin 4 → Fin 4 → Byte) : Block :=
  ⟨⟨f 0 0, f 0 1, f 0 2, f 0 3⟩, ⟨f 1 0, f 1 1, f 1 2, f 1 3⟩, ⟨f 2 0, f 2 1, f 2 2, f 2 3⟩, ⟨f 3 0, f 3 1, f 3 2, f 3 3⟩⟩

/-- Column `c` of a Block, the bytes at offsets `{c, c+4, c+8, c+12}`, top row first (R83). -/
def columnOf (b : Block) (c : Fin 4) : Word := ⟨byteOf b 0 c, byteOf b 1 c, byteOf b 2 c, byteOf b 3 c⟩

/-- Round key `r` of a schedule (R7). -/
def roundKey (k : Schedule) : Fin 11 → Block
  | 0 => k.k0
  | 1 => k.k1
  | 2 => k.k2
  | 3 => k.k3
  | 4 => k.k4
  | 5 => k.k5
  | 6 => k.k6
  | 7 => k.k7
  | 8 => k.k8
  | 9 => k.k9
  | 10 => k.k10

/-- `Fill`: a data block in external order to the state's internal order, `Fill(in)[4r+c] = in[r+4c]` (R22). -/
def fill (b : Block) : Block := blockOf fun r c => byteOf b c r

/-- `Drain`: the state to a data block in external order, `Drain(S)[r+4c] = S[4r+c]` (R22). Position `r + 4c` of the
result is its row `c`, column `r`. -/
def drain (s : Block) : Block := blockOf fun c r => byteOf s r c

end Sys2Proof.Machine
end

