-- ==== Sys2Proof/Machine/Ops.lean ====
section
/-! DEFINITION. The operations over registers and ports that the meanings share: completing a command, raising an
error, the register writes, the trace port, the sink port, and reset. -/

namespace Sys2Proof.Machine

/-! ### Completing a command, and raising an error -/

/-- `respond(bytes)`: the command has completed, its response packet is status OK and the result bytes (R33). -/
def State.respond (s : State) (result : List Byte) : State :=
  { s with out := s.out ++ [.response (statusOk :: result)] }

/-- `raise <Error>`: the block's exception, the one operation every error goes through. It sets `ERR[k-1]` and answers
with the single byte `k` (R116). Nothing saves a position, no mode changes, no handler runs (R116); the caller raises
before it writes a register, but for SinkFailure (R117). There is no return from an error: the step after it
takes the next command (R118). -/
def State.raise (s : State) (e : Err) : State :=
  { s with err := stickyErr s.err e, out := s.out ++ [.response [errCode e]] }

/-! ### Register writes -/

/-- All 176 bytes of `RK` and `KV` in one step (R7, R25). -/
def State.loadKeys (s : State) (k : Schedule) : State := { s with rk := k, kv := true }

/-- `ST <- b`, `b` in internal order (R9). -/
def State.setSt (s : State) (b : Block) : State := { s with st := b }

/-- `RND <- r` (R11). -/
def State.setRnd (s : State) (r : BitVec 4) : State := { s with rnd := r }

/-- `CV <- iv; CVV <- 1` (R108). -/
def State.loadIv (s : State) (iv : Block) : State := { s with cv := iv, cvv := true }

/-- `CV <- c`, the chaining value of the next block (R105). -/
def State.setCv (s : State) (c : Block) : State := { s with cv := c }

/-! ### The trace port and the sink port -/

/-- `trace(RND, step, ST)`: one event, if the build records events (R98). -/
def State.emitTrace (s : State) (g : Stage) : State :=
  if s.cfg.traceEn then { s with out := s.out ++ [.trace ⟨s.rnd, g, s.st⟩] } else s

/-- The sink's answer to write number `n`: the environment's, or where it gives none the free value (R107, log
entry 7). -/
def State.answerAt (s : State) (n : Nat) : SinkAnswer :=
  match s.sinkAnswers[n]? with
  | some a => a
  | none => Config.freeSinkAnswer n

/-- The sink's answer to the next write. -/
def State.nextAnswer (s : State) : SinkAnswer := s.answerAt s.sinkCount

/-- `SinkWrite(b)`: offer one 16-byte block to the sink, which answers State.nextAnswer (R107). -/
def State.sinkWrite (s : State) (b : Block) : State :=
  { s with out := s.out ++ [.sinkWrite b s.nextAnswer], sinkCount := s.sinkCount + 1 }

/-! ### Reset -/

/-- Reset puts every register at its value after reset and keeps nothing (R123). What has left the block stays out;
the build's parameters and the environment are not the block's to reset. -/
def State.resetRegisters (s : State) : State :=
  { s with
    rk := State.reset.rk, kv := State.reset.kv, st := State.reset.st, rnd := State.reset.rnd, cv := State.reset.cv,
    cvv := State.reset.cvv, err := State.reset.err }

/-- How much of a command's port output has left the block when a reset abandons it: everything up to `writes` sink
writes, then up to `traces` trace events, never the response (R123: "abandoned without a response, and any of its
sink writes already accepted stay delivered"; log entry 8). -/
def outputsBeforeReset : (writes traces : Nat) → List PortOut → List PortOut
  | _, _, [] => []
  | _, _, .response _ :: _ => []
  | 0, _, .sinkWrite _ _ :: _ => []
  | writes + 1, traces, .sinkWrite b a :: rest => .sinkWrite b a :: outputsBeforeReset writes traces rest
  | writes + 1, traces, .trace e :: rest => .trace e :: outputsBeforeReset (writes + 1) traces rest
  | 0, 0, .trace _ :: _ => []
  | 0, traces + 1, .trace e :: rest => .trace e :: outputsBeforeReset 0 traces rest

/-- How many sink writes stand in a list of port outputs. -/
def countWrites : List PortOut → Nat
  | [] => 0
  | .sinkWrite _ _ :: rest => countWrites rest + 1
  | .response _ :: rest => countWrites rest
  | .trace _ :: rest => countWrites rest

/-- The state after a reset in the middle of a command: `s` is the state before the command, `done` the outputs the
command makes when it runs to its end (R123). -/
def State.abandon (s : State) (done : List PortOut) (writes traces : Nat) : State :=
  let left := outputsBeforeReset writes traces done
  { s.resetRegisters with out := s.out ++ left, sinkCount := s.sinkCount + countWrites left }

end Sys2Proof.Machine
end

