-- ==== Sys2Proof/Machine/Field.lean ====
section
/-! DEFINITION. The GF(2^8) field unit (40_field.md): GfAdd, GfMul, GfPow, GfInv, GfBit and the commands GFADD, GFMUL,
GFPOW, GFINV, GFBIT. -/

namespace Sys2Proof.Machine

/-- `GfAdd(a, b) = a ^ b` (R45). -/
def gfAdd (a b : Byte) : Byte := a ^^^ b

/-- Shift left by one, drop the bit shifted out, and reduce with 0x1B if it was 1 (R46). -/
def gfShift (t : Byte) : Byte := if t.getLsbD 7 then (t <<< 1) ^^^ 0x1B else t <<< 1

/-- One iteration of the multiplier on `(acc, t)` (R46). -/
def gfMulStep (b : Byte) (x : Byte × Byte) (i : Nat) : Byte × Byte :=
  (if b.getLsbD i then x.1 ^^^ x.2 else x.1, gfShift x.2)

/-- `GfMul(a, b)`: eight iterations, the bits of `b` from bit 0 upward (R46). -/
def gfMul (a b : Byte) : Byte := ([0, 1, 2, 3, 4, 5, 6, 7].foldl (gfMulStep b) (0x00, a)).1

/-- `a` after `m` multiplications by `a` (R48). -/
def gfMulTimes (a : Byte) : Nat → Byte
  | 0 => a
  | m + 1 => gfMul (gfMulTimes a m) a

/-- `GfPow(a, n)` for `n ≥ 1`: `n-1` multiplications by `a` (R48). It has no value at `n` = 0 (U1). -/
def gfPow (a : Byte) (n : Nat) (_ : n ≠ 0) : Byte := gfMulTimes a (n - 1)

/-- `GfInv(a) = GfPow(a, 254)` (R49). -/
def gfInv (a : Byte) : Byte := gfPow a 254 (by decide)

/-- `GfBit(a, i)`, the coefficient of x^i, for `i` in 0..7 (R50). -/
def gfBit (a : Byte) (i : Fin 8) : Bool := a.getLsbD i.val

/-- `zext_8` of one bit. -/
def bitByte (b : Bool) : Byte := if b then 0x01 else 0x00

/-- GFADD (R52). -/
def execGfadd (a b : Byte) (s : State) : Host.Outcome State Fault Refusal := .next (s.respond [gfAdd a b])

/-- GFMUL (R53). -/
def execGfmul (a b : Byte) (s : State) : Host.Outcome State Fault Refusal := .next (s.respond [gfMul a b])

/-- GFPOW: `n` = 0 is a reserved operand (R38, R54). -/
def execGfpow (a n : Byte) (s : State) : Host.Outcome State Fault Refusal :=
  if h : n.toNat = 0 then .next (s.raise .illegalCommand) else .next (s.respond [gfPow a n.toNat h])

/-- GFINV (R55). -/
def execGfinv (a : Byte) (s : State) : Host.Outcome State Fault Refusal := .next (s.respond [gfInv a])

/-- GFBIT: a bit index above 7 is InvalidIndex (R56). -/
def execGfbit (a i : Byte) (s : State) : Host.Outcome State Fault Refusal :=
  match indexOperand 8 i with
  | none => .next (s.raise .invalidIndex)
  | some k => .next (s.respond [bitByte (gfBit a k)])

end Sys2Proof.Machine
end

