-- ==== Sys2Proof/Machine/Sbox.lean ====
section
/-! DEFINITION. The S-box (41_sbox.md): the functions SboxF and SboxI (R57, R58), the ROMs SBOX and ISBOX written out
from R60, and the commands SBOXF and SBOXI. The commands read the ROMs (R61, R62). -/

namespace Sys2Proof.Machine

/-! ### The functions (R57, R58) -/

/-- The byte with bits `f 0 .. f 7`, bit 0 the least significant (R21). -/
def byteOfBits (f : Nat → Bool) : Byte :=
  bitByte (f 0) ||| bitByte (f 1) <<< 1 ||| bitByte (f 2) <<< 2 ||| bitByte (f 3) <<< 3 ||| bitByte (f 4) <<< 4 |||
    bitByte (f 5) <<< 5 ||| bitByte (f 6) <<< 6 ||| bitByte (f 7) <<< 7

/-- The affine transform of the forward substitution, `k` the bits of 0x63 (R57). -/
def affine (b : Byte) : Byte :=
  byteOfBits fun i =>
    b.getLsbD i ^^ b.getLsbD ((i + 4) % 8) ^^ b.getLsbD ((i + 5) % 8) ^^ b.getLsbD ((i + 6) % 8) ^^
      b.getLsbD ((i + 7) % 8) ^^ (0x63#8).getLsbD i

/-- `SboxF(c)`: the field inverse, then the affine transform (R57). -/
def sboxF (c : Byte) : Byte := affine (gfInv c)

/-- The inverse affine transform, the eight lines of R58; `k` the bits of 0x05. -/
def inverseAffine (s : Byte) : Byte :=
  byteOfBits fun i =>
    match i with
    | 0 => s.getLsbD 2 ^^ s.getLsbD 5 ^^ s.getLsbD 7 ^^ (0x05#8).getLsbD 0
    | 1 => s.getLsbD 0 ^^ s.getLsbD 3 ^^ s.getLsbD 6 ^^ (0x05#8).getLsbD 1
    | 2 => s.getLsbD 1 ^^ s.getLsbD 4 ^^ s.getLsbD 7 ^^ (0x05#8).getLsbD 2
    | 3 => s.getLsbD 0 ^^ s.getLsbD 2 ^^ s.getLsbD 5 ^^ (0x05#8).getLsbD 3
    | 4 => s.getLsbD 1 ^^ s.getLsbD 3 ^^ s.getLsbD 6 ^^ (0x05#8).getLsbD 4
    | 5 => s.getLsbD 2 ^^ s.getLsbD 4 ^^ s.getLsbD 7 ^^ (0x05#8).getLsbD 5
    | 6 => s.getLsbD 0 ^^ s.getLsbD 3 ^^ s.getLsbD 5 ^^ (0x05#8).getLsbD 6
    | _ => s.getLsbD 1 ^^ s.getLsbD 4 ^^ s.getLsbD 6 ^^ (0x05#8).getLsbD 7

/-- `SboxI(s)`: the inverse affine transform, then the same field inversion (R58). -/
def sboxI (s : Byte) : Byte := gfInv (inverseAffine s)

/-! ### The ROMs (R60) -/

/-- Rows 0x to 7x of the table `SBOX` (R60): 16 bytes a row, the leftmost that of column 0. -/
def sboxRowsLow : List Nat :=
  [ 0x637c777bf26b6fc53001672bfed7ab76,
    0xca82c97dfa5947f0add4a2af9ca472c0,
    0xb7fd9326363ff7cc34a5e5f171d83115,
    0x04c723c31896059a071280e2eb27b275,
    0x09832c1a1b6e5aa0523bd6b329e32f84,
    0x53d100ed20fcb15b6acbbe394a4c58cf,
    0xd0efaafb434d338545f9027f503c9fa8,
    0x51a3408f929d38f5bcb6da2110fff3d2 ]

/-- Rows 8x to fx of the table `SBOX` (R60): 16 bytes a row, the leftmost that of column 0. -/
def sboxRowsHigh : List Nat :=
  [ 0xcd0c13ec5f974417c4a77e3d645d1973,
    0x60814fdc222a908846eeb814de5e0bdb,
    0xe0323a0a4906245cc2d3ac629195e479,
    0xe7c8376d8dd54ea96c56f4ea657aae08,
    0xba78252e1ca6b4c6e8dd741f4bbd8b8a,
    0x703eb5664803f60e613557b986c11d9e,
    0xe1f8981169d98e949b1e87e9ce5528df,
    0x8ca1890dbfe6426841992d0fb054bb16 ]

/-- Rows 0x to 7x of the table `ISBOX` (R60): 16 bytes a row, the leftmost that of column 0. -/
def isboxRowsLow : List Nat :=
  [ 0x52096ad53036a538bf40a39e81f3d7fb,
    0x7ce339829b2fff87348e4344c4dee9cb,
    0x547b9432a6c2233dee4c950b42fac34e,
    0x082ea16628d924b2765ba2496d8bd125,
    0x72f8f66486689816d4a45ccc5d65b692,
    0x6c704850fdedb9da5e154657a78d9d84,
    0x90d8ab008cbcd30af7e45805b8b34506,
    0xd02c1e8fca3f0f02c1afbd0301138a6b ]

/-- Rows 8x to fx of the table `ISBOX` (R60): 16 bytes a row, the leftmost that of column 0. -/
def isboxRowsHigh : List Nat :=
  [ 0x3a9111414f67dcea97f2cfcef0b4e673,
    0x96ac7422e7ad3585e2f937e81c75df6e,
    0x47f11a711d29c5896fb7620eaa18be1b,
    0xfc563e4bc6d279209adbc0fe78cd5af4,
    0x1fdda8338807c731b11210592780ec5f,
    0x60517fa919b54a0d2de57a9f93c99cef,
    0xa0e03b4dae2af5b0c8ebbb3c83539961,
    0x172b047eba77d626e169146355210c7d ]

/-- A 256-byte ROM read at an index: row = high nibble, column = low nibble (R60). -/
def romRead (rows : List Nat) (x : Byte) : Byte :=
  BitVec.ofNat 8 (rows.getD (x.toNat / 16) 0 >>> (8 * (15 - x.toNat % 16)))

/-- `SBOX[x]` (R60). -/
def sbox (x : Byte) : Byte := romRead (sboxRowsLow ++ sboxRowsHigh) x

/-- `ISBOX[x]` (R60). -/
def isbox (x : Byte) : Byte := romRead (isboxRowsLow ++ isboxRowsHigh) x

/-! ### The commands -/

/-- SBOXF (R61). -/
def execSboxf (c : Byte) (s : State) : Host.Outcome State Fault Refusal := .next (s.respond [sbox c])

/-- SBOXI (R62). -/
def execSboxi (c : Byte) (s : State) : Host.Outcome State Fault Refusal := .next (s.respond [isbox c])

end Sys2Proof.Machine
end

