-- ==== Sys2Proof/Machine/WordBlock.lean ====
section
/-! DEFINITION. The Word and Block operations (42_word_block.md): RotWord, SubWord, XorWord, XorConst, WordOf,
BlockXor and the commands ROTW, SUBW, XORW, XORWC, WBYTE, BWORD, BXOR. -/

namespace Sys2Proof.Machine

/-- `RotWord((v0,v1,v2,v3)) = (v1,v2,v3,v0)` (R65). -/
def rotWord (w : Word) : Word := ⟨w.b1, w.b2, w.b3, w.b0⟩

/-- `SubWord`: the SBOX on each of the 4 bytes (R66). -/
def subWord (w : Word) : Word := ⟨sbox w.b0, sbox w.b1, sbox w.b2, sbox w.b3⟩

/-- `XorWord`: byte-wise XOR (R67). -/
def xorWord (v w : Word) : Word := ⟨v.b0 ^^^ w.b0, v.b1 ^^^ w.b1, v.b2 ^^^ w.b2, v.b3 ^^^ w.b3⟩

/-- `XorConst(w, c)`: the constant's bytes least significant first, XORed positionally (R68). -/
def xorConst (w : Word) (c : BitVec 32) : Word := xorWord w (constWord c)

/-- `BlockXor(B, buf)`: positional XOR of two Blocks (R70). -/
def blockXor (b buf : Block) : Block :=
  ⟨xorWord b.w0 buf.w0, xorWord b.w1 buf.w1, xorWord b.w2 buf.w2, xorWord b.w3 buf.w3⟩

/-- ROTW (R71). -/
def execRotw (w : Word) (s : State) : Host.Outcome State Fault Refusal := .next (s.respond (rotWord w).bytes)

/-- SUBW (R72). -/
def execSubw (w : Word) (s : State) : Host.Outcome State Fault Refusal := .next (s.respond (subWord w).bytes)

/-- XORW (R73). -/
def execXorw (w1 w2 : Word) (s : State) : Host.Outcome State Fault Refusal :=
  .next (s.respond (xorWord w1 w2).bytes)

/-- XORWC (R74). -/
def execXorwc (w : Word) (c : BitVec 32) (s : State) : Host.Outcome State Fault Refusal :=
  .next (s.respond (xorConst w c).bytes)

/-- WBYTE: an index above 3 is InvalidIndex (R75). -/
def execWbyte (w : Word) (i : Byte) (s : State) : Host.Outcome State Fault Refusal :=
  match indexOperand 4 i with
  | none => .next (s.raise .invalidIndex)
  | some k => .next (s.respond [wordByte w k])

/-- BWORD: an index above 3 is InvalidIndex (R76). -/
def execBword (blk : Block) (i : Byte) (s : State) : Host.Outcome State Fault Refusal :=
  match indexOperand 4 i with
  | none => .next (s.raise .invalidIndex)
  | some k => .next (s.respond (wordOf blk k).bytes)

/-- BXOR: the updated buffer is the result; no register changes (R77). -/
def execBxor (blk buf : Block) (s : State) : Host.Outcome State Fault Refusal :=
  .next (s.respond (blockXor blk buf).bytes)

end Sys2Proof.Machine
end

