-- ==== Sys2Proof/Machine/KeySchedule.lean ====
section
/-! DEFINITION. The key-schedule expander and the round-key file (43_keyschedule.md): RCON, KeyExpand and the commands
KEYEXP, RKLD, RKRD. -/

namespace Sys2Proof.Machine

/-- `RCON[r]` (R15); index 0 is unused. -/
def rcon : Fin 11 → Byte
  | 0 => 0x00
  | 1 => 0x01
  | 2 => 0x02
  | 3 => 0x04
  | 4 => 0x08
  | 5 => 0x10
  | 6 => 0x20
  | 7 => 0x40
  | 8 => 0x80
  | 9 => 0x1B
  | 10 => 0x36

/-- Round `r` of the expansion: from `w[4(r-1)..4(r-1)+3]` to `w[4r..4r+3]` (R78). -/
def nextRoundKey (r : Fin 11) (prev : Block) : Block :=
  let temp := xorConst (subWord (rotWord prev.w3)) ((rcon r).zeroExtend 32)
  let v0 := xorWord temp prev.w0
  let v1 := xorWord v0 prev.w1
  let v2 := xorWord v1 prev.w2
  let v3 := xorWord v2 prev.w3
  ⟨v0, v1, v2, v3⟩

/-- `KeyExpand(key)`: round key 0 is the key, round key `r` comes from round key `r-1` (R78). -/
def keyExpand (key : Block) : Schedule :=
  let k1 := nextRoundKey 1 key
  let k2 := nextRoundKey 2 k1
  let k3 := nextRoundKey 3 k2
  let k4 := nextRoundKey 4 k3
  let k5 := nextRoundKey 5 k4
  let k6 := nextRoundKey 6 k5
  let k7 := nextRoundKey 7 k6
  let k8 := nextRoundKey 8 k7
  let k9 := nextRoundKey 9 k8
  let k10 := nextRoundKey 10 k9
  ⟨key, k1, k2, k3, k4, k5, k6, k7, k8, k9, k10⟩

/-- KEYEXP: all of `RK` and `KV`, nothing else (R80). -/
def execKeyexp (key : Block) (s : State) : Host.Outcome State Fault Refusal :=
  .next ((s.loadKeys (keyExpand key)).respond [])

/-- RKLD: any eleven Blocks, no relation between them is checked (R81). -/
def execRkld (sched : Schedule) (s : State) : Host.Outcome State Fault Refusal :=
  .next ((s.loadKeys sched).respond [])

/-- RKRD: the index is checked before the valid flag (R82). -/
def execRkrd (r : Byte) (s : State) : Host.Outcome State Fault Refusal :=
  match indexOperand 11 r with
  | none => .next (s.raise .invalidIndex)
  | some k => if s.kv then .next (s.respond (roundKey s.rk k).bytes) else .next (s.raise .noKey)

end Sys2Proof.Machine
end

