-- ==== Sys2Proof/Machine/Round.lean ====
section
/-! DEFINITION. The round pipeline (44_round.md): AddRoundKey, SubBytes, ShiftRows, MixColumns on the state in internal
order, and the commands STLD, STRD, ARK, SUBB, SHROW, MIXC. -/

namespace Sys2Proof.Machine

/-- `AddRoundKey(S, K)`: `S'[4r + c] = S[4r + c] ^ K[4c + r]`, word `c` of the key into column `c` (R84). -/
def addRoundKey (st : Block) (k : Block) : Block := blockOf fun r c => byteOf st r c ^^^ byteOf k c r

/-- `SubBytes(S)`: the SBOX on every byte (R85). -/
def subBytes (st : Block) : Block := blockOf fun r c => sbox (byteOf st r c)

/-- `ShiftRows(S)`: `S'[4r + c] = S[4r + ((c + r) mod 4)]` (R86). -/
def shiftRows (st : Block) : Block := blockOf fun r c => byteOf st r (c + r)

/-- One column of MixColumns, `[b0,b1,b2,b3]` to its four combinations (R87). -/
def mixColumn (b : Word) : Word :=
  ⟨gfMul 0x02 b.b0 ^^^ gfMul 0x03 b.b1 ^^^ b.b2 ^^^ b.b3,
    b.b0 ^^^ gfMul 0x02 b.b1 ^^^ gfMul 0x03 b.b2 ^^^ b.b3,
    b.b0 ^^^ b.b1 ^^^ gfMul 0x02 b.b2 ^^^ gfMul 0x03 b.b3,
    gfMul 0x03 b.b0 ^^^ b.b1 ^^^ b.b2 ^^^ gfMul 0x02 b.b3⟩

/-- `MixColumns(S)`: every column by mixColumn (R87). -/
def mixColumns (st : Block) : Block := blockOf fun r c => wordByte (mixColumn (columnOf st c)) r

/-- STLD: `ST <- Fill(blk)` (R89). -/
def execStld (blk : Block) (s : State) : Host.Outcome State Fault Refusal := .next ((s.setSt (fill blk)).respond [])

/-- STRD: `respond(Drain(ST))` (R90). -/
def execStrd (s : State) : Host.Outcome State Fault Refusal := .next (s.respond (drain s.st).bytes)

/-- ARK: the index is checked before the valid flag (R91). -/
def execArk (r : Byte) (s : State) : Host.Outcome State Fault Refusal :=
  match indexOperand 11 r with
  | none => .next (s.raise .invalidIndex)
  | some k =>
    if s.kv then .next ((s.setSt (addRoundKey s.st (roundKey s.rk k))).respond []) else .next (s.raise .noKey)

/-- SUBB (R92). -/
def execSubb (s : State) : Host.Outcome State Fault Refusal := .next ((s.setSt (subBytes s.st)).respond [])

/-- SHROW (R93). -/
def execShrow (s : State) : Host.Outcome State Fault Refusal := .next ((s.setSt (shiftRows s.st)).respond [])

/-- MIXC (R94). -/
def execMixc (s : State) : Host.Outcome State Fault Refusal := .next ((s.setSt (mixColumns s.st)).respond [])

end Sys2Proof.Machine
end

