-- ==== Sys2Proof/Machine/Cipher.lean ====
section
/-! DEFINITION. The 10-round cipher datapath (45_cipher.md): the function Encrypt (R95), the micro-steps that run it on
the registers and the trace port (R97, R98), and the command ENC. -/

namespace Sys2Proof.Machine

/-! ### The function (R95) -/

/-- The rounds 1 to 9, which have all four stages (R95). -/
def fullRounds : List (Fin 11) := [1, 2, 3, 4, 5, 6, 7, 8, 9]

/-- One full round of R95 on the state. -/
def roundFn (k : Schedule) (st : Block) (r : Fin 11) : Block :=
  addRoundKey (mixColumns (shiftRows (subBytes st))) (roundKey k r)

/-- The state of R95 after the final round, in internal order. -/
def encryptState (pt : Block) (k : Schedule) : Block :=
  let s9 := fullRounds.foldl (roundFn k) (addRoundKey (fill pt) (roundKey k 0))
  addRoundKey (shiftRows (subBytes s9)) (roundKey k 10)

/-- `Encrypt(pt, K)`, plaintext and ciphertext in external order (R95). -/
def encrypt (pt : Block) (k : Schedule) : Block := drain (encryptState pt k)

/-! ### The micro-steps (R97) -/

/-- One stage applied to `ST`, and its trace event. -/
def stageStep (g : Stage) (f : Block → Block) (s : State) : State := (s.setSt (f s.st)).emitTrace g

/-- `ST <- AddRoundKey(ST, RK[r])` and its event. -/
def arkStep (r : Fin 11) (s : State) : State := stageStep .ark (fun st => addRoundKey st (roundKey s.rk r)) s

/-- One of the rounds 1 to 9: `RND <- round`, then the four stages (R97). -/
def roundStep (s : State) (r : Fin 11) : State :=
  arkStep r (stageStep .mixc mixColumns (stageStep .shrow shiftRows (stageStep .subb subBytes
    (s.setRnd (BitVec.ofNat 4 r.val)))))

/-- `RND <- 10` and the three stages of the final round (R97). -/
def finalStep (s : State) : State :=
  arkStep 10 (stageStep .shrow shiftRows (stageStep .subb subBytes (s.setRnd 10)))

/-- The whole sequence of R97 with plaintext `pt`: `ST` ends as the final state, `RND` at 0. -/
def runEncrypt (pt : Block) (s : State) : State :=
  (finalStep (fullRounds.foldl roundStep (arkStep 0 ((s.setRnd 0).setSt (fill pt))))).setRnd 0

/-- ENC (R99). -/
def execEnc (blk : Block) (s : State) : Host.Outcome State Fault Refusal :=
  if s.kv then
    let t := runEncrypt blk s
    .next (t.respond (drain t.st).bytes)
  else .next (s.raise .noKey)

end Sys2Proof.Machine
end

