-- ==== Sys2Proof/Machine/Chaining.lean ====
section
/-! DEFINITION. The chaining layer (46_chaining.md): PKCS#7 padding (R102, R103), the block loop (R104, R105, R109) and
the commands CBCIV and CBCENC. -/

namespace Sys2Proof.Machine

/-- `nb = floor(L / 16) + 1` (R102). -/
def blockCount (len : Nat) : Nat := len / 16 + 1

/-- `pc = 16·nb - L` (R103). -/
def padCount (len : Nat) : Nat := 16 * blockCount len - len

/-- The padded stream `P = data ‖ [pc]*pc` (R103). -/
def padded (data : List Byte) : List Byte :=
  data ++ List.replicate (padCount data.length) (BitVec.ofNat 8 (padCount data.length))

/-- The plaintext blocks `P[16i .. 16i+15]`, i = 0..nb-1 (R103). -/
def plaintextBlocks (data : List Byte) : List Block :=
  (List.range (blockCount data.length)).map fun i => blockAt (padded data) (16 * i)

/-- The block loop of R109 over the plaintext blocks still to do, and the response that ends it. A rejected write
stops it with SinkFailure before `CV` is written (R105, R117). -/
def cbcLoop : List Block → State → State
  | [], s => s.respond []
  | p :: rest, s =>
    let t := runEncrypt (blockXor s.cv p) s
    let c := drain t.st
    if t.nextAnswer = .accept then cbcLoop rest ((t.sinkWrite c).setCv c) else (t.sinkWrite c).raise .sinkFailure

/-- CBCIV (R108). -/
def execCbciv (iv : Block) (s : State) : Host.Outcome State Fault Refusal :=
  if s.cfg.chainingEn then .next ((s.loadIv iv).respond []) else .next (s.raise .illegalCommand)

/-- CBCENC: NoKey before NoIv, both before any block (R109, R115). -/
def execCbcenc (data : List Byte) (s : State) : Host.Outcome State Fault Refusal :=
  if s.cfg.chainingEn then
    if s.kv then
      if s.cvv then .next (cbcLoop (plaintextBlocks data) s) else .next (s.raise .noIv)
    else .next (s.raise .noKey)
  else .next (s.raise .illegalCommand)

end Sys2Proof.Machine
end

