-- ==== Sys2Proof/Machine/System.lean ====
section
/-! DEFINITION. The system command STAT (47_system.md). -/

namespace Sys2Proof.Machine

/-- STAT: `respond([STATUS, ERR])`, the values before this STAT; nothing is written (R110). -/
def execStat (s : State) : Host.Outcome State Fault Refusal := .next (s.respond [statusView s, s.err])

end Sys2Proof.Machine
end

