-- ==== Sys2Proof/Machine/Dispatch.lean ====
section
/-! DEFINITION. One arm per command of the opcode map (R36), each the call of its meaning. -/

namespace Sys2Proof.Machine

def exec (i : Instr) (s : State) : Host.Outcome State Fault Refusal :=
  match i with
  | .stat => Sys2Proof.Machine.execStat s
  | .gfadd a b => Sys2Proof.Machine.execGfadd a b s
  | .gfmul a b => Sys2Proof.Machine.execGfmul a b s
  | .gfpow a n => Sys2Proof.Machine.execGfpow a n s
  | .gfinv a => Sys2Proof.Machine.execGfinv a s
  | .gfbit a k => Sys2Proof.Machine.execGfbit a k s
  | .sboxf c => Sys2Proof.Machine.execSboxf c s
  | .sboxi c => Sys2Proof.Machine.execSboxi c s
  | .rotw w => Sys2Proof.Machine.execRotw w s
  | .subw w => Sys2Proof.Machine.execSubw w s
  | .xorw w1 w2 => Sys2Proof.Machine.execXorw w1 w2 s
  | .xorwc w c => Sys2Proof.Machine.execXorwc w c s
  | .wbyte w k => Sys2Proof.Machine.execWbyte w k s
  | .bword blk k => Sys2Proof.Machine.execBword blk k s
  | .bxor blk buf => Sys2Proof.Machine.execBxor blk buf s
  | .keyexp key => Sys2Proof.Machine.execKeyexp key s
  | .rkld sched => Sys2Proof.Machine.execRkld sched s
  | .rkrd r => Sys2Proof.Machine.execRkrd r s
  | .stld blk => Sys2Proof.Machine.execStld blk s
  | .strd => Sys2Proof.Machine.execStrd s
  | .ark r => Sys2Proof.Machine.execArk r s
  | .subb => Sys2Proof.Machine.execSubb s
  | .shrow => Sys2Proof.Machine.execShrow s
  | .mixc => Sys2Proof.Machine.execMixc s
  | .enc blk => Sys2Proof.Machine.execEnc blk s
  | .cbciv iv => Sys2Proof.Machine.execCbciv iv s
  | .cbcenc data => Sys2Proof.Machine.execCbcenc data s

end Sys2Proof.Machine
end

