-- ==== Sys2Proof/Machine/Packet.lean ====
section
/-! DEFINITION. What the block does with one event at its inputs: a packet is decoded and its command run to completion
(R25, R28, R40), a reset puts every register at its reset value (R123). -/

namespace Sys2Proof.Machine

/-- Run one packet: the command it decodes to, or the error the decoder rejects it with (R37, R39). -/
def runPacket (packet : List Byte) (s : State) : Host.Outcome State Fault Refusal :=
  match decode s.cfg packet with
  | .ok i => exec i s
  | .error e => .next (s.raise e)

/-- A reset in the middle of a packet's command (R123): the registers are those of reset, and of what the command sends
when it runs to its end only a first part has left the block (log entry 8). -/
def resetDuring (packet : List Byte) (writes traces : Nat) (s : State) : Host.Outcome State Fault Refusal :=
  match runPacket packet s with
  | .next t => .next (s.abandon (t.out.drop s.out.length) writes traces)
  | .fault r => .fault r
  | .refused r => .refused r

/-- One event, already taken from the port. -/
def runEvent (e : HostEvent) (s : State) : Host.Outcome State Fault Refusal :=
  match e with
  | .packet bytes => runPacket bytes s
  | .reset => .next s.resetRegisters
  | .resetDuring bytes writes traces => resetDuring bytes writes traces s

/-- Take the next event from the inputs and run it; with none there the block waits, unchanged (R123, log entry 5). -/
def takeEvent (s : State) : Host.Outcome State Fault Refusal :=
  match s.cmdIn with
  | [] => .next s
  | e :: rest => runEvent e { s with cmdIn := rest }

/-- The state with one more packet standing first on the command port. -/
def State.deliver (s : State) (packet : List Byte) : State := { s with cmdIn := .packet packet :: s.cmdIn }

end Sys2Proof.Machine
end

