-- ==== Sys2Proof/Machine/Step.lean ====
section
/-! DEFINITION. One step of the block: one event at its inputs, run to completion (R25, R28). -/

namespace Sys2Proof.Machine

/-- One step (R28). -/
def step (s : State) : Host.Outcome State Fault Refusal := takeEvent s

/-- The state with the opcode table's word as the packet the next step takes (log entry 9). -/
def State.withFetchWord (s : State) (nbits w : Nat) : State := s.deliver (tablePacket nbits w)

end Sys2Proof.Machine
end

