-- ==== Sys2Proof/Machine/Assembler.lean ====
section
/-! DEFINITION. The textual form of commands and responses (R42), and the aliases and the pseudo-command ENCSEQ (R43).
Nothing in the machine reads this file: it is the spec's notation for programs. -/

namespace Sys2Proof.Machine

/-! ### Aliases and ENCSEQ (R43) -/

/-- The alternative names of R43, with their operands. -/
inductive Pseudo where
  | add (a b : Byte)
  | multiply (a b : Byte)
  | pow (a n : Byte)
  | inverse (a : Byte)
  | rotword (w : Word)
  | subword (w : Word)
  | resetroundkeys (key : Block)
  | addroundkey (r : Byte)
  | subbytes
  | shiftrows
  | mixcolumns
  | encseq (blk : Block)
  deriving DecidableEq, Repr

/-- Round `r` of ENCSEQ: `SUBB`; `SHROW`; `MIXC`; `ARK r` (R43). -/
def encSeqRound (r : Byte) : List Instr := [.subb, .shrow, .mixc, .ark r]

/-- `ENCSEQ blk`, the 42 commands of the round-by-round form (R43). -/
def encSeq (blk : Block) : List Instr :=
  [.stld blk, .ark 0] ++ ([1, 2, 3, 4, 5, 6, 7, 8, 9] : List Byte).flatMap encSeqRound ++
    [.subb, .shrow, .ark 10, .strd]

/-- The commands a name assembles to (R43). -/
def Pseudo.expand : Pseudo → List Instr
  | .add a b => [.gfadd a b]
  | .multiply a b => [.gfmul a b]
  | .pow a n => [.gfpow a n]
  | .inverse a => [.gfinv a]
  | .rotword w => [.rotw w]
  | .subword w => [.subw w]
  | .resetroundkeys key => [.keyexp key]
  | .addroundkey r => [.ark r]
  | .subbytes => [.subb]
  | .shiftrows => [.shrow]
  | .mixcolumns => [.mixc]
  | .encseq blk => encSeq blk

/-- Commands run one after the other on the registers, each after the one before has answered (R28). -/
def runAll : List Instr → State → Host.Outcome State Fault Refusal
  | [], s => .next s
  | i :: rest, s =>
    match exec i s with
    | .next t => runAll rest t
    | .fault r => .fault r
    | .refused r => .refused r

/-! ### Text (R42) -/

/-- The lower-case hexadecimal digit of a number below 16. -/
def hexDigit (n : Nat) : Char := if n < 10 then Char.ofNat (48 + n) else Char.ofNat (87 + n)

/-- A byte as two hexadecimal digits. -/
def hexByte (v : Byte) : List Char := [hexDigit (v.toNat / 16), hexDigit (v.toNat % 16)]

/-- A byte string: its bytes in index order, without a leading 0x (R42). -/
def hexBytes (l : List Byte) : List Char := l.flatMap hexByte

/-- A one-byte operand written as a number (R42). -/
def byteNumber (v : Byte) : List Char := ['0', 'x'] ++ hexByte v

/-- A 32-bit constant written as a number, most significant digit first (R42). -/
def constNumber (c : BitVec 32) : List Char := ['0', 'x'] ++ hexBytes (constWord c).bytes.reverse

/-- A stream operand; the empty stream is two double quotes (R42). -/
def streamText (data : List Byte) : List Char :=
  if data.isEmpty then [Char.ofNat 34, Char.ofNat 34] else hexBytes data

/-- Mnemonic and operands of a command (R42, R36). -/
def asmParts : Instr → List Char × List (List Char)
  | .stat => ("STAT".toList, [])
  | .gfadd a b => ("GFADD".toList, [byteNumber a, byteNumber b])
  | .gfmul a b => ("GFMUL".toList, [byteNumber a, byteNumber b])
  | .gfpow a n => ("GFPOW".toList, [byteNumber a, byteNumber n])
  | .gfinv a => ("GFINV".toList, [byteNumber a])
  | .gfbit a i => ("GFBIT".toList, [byteNumber a, byteNumber i])
  | .sboxf c => ("SBOXF".toList, [byteNumber c])
  | .sboxi s => ("SBOXI".toList, [byteNumber s])
  | .rotw w => ("ROTW".toList, [hexBytes w.bytes])
  | .subw w => ("SUBW".toList, [hexBytes w.bytes])
  | .xorw w1 w2 => ("XORW".toList, [hexBytes w1.bytes, hexBytes w2.bytes])
  | .xorwc w c => ("XORWC".toList, [hexBytes w.bytes, constNumber c])
  | .wbyte w i => ("WBYTE".toList, [hexBytes w.bytes, byteNumber i])
  | .bword blk i => ("BWORD".toList, [hexBytes blk.bytes, byteNumber i])
  | .bxor blk buf => ("BXOR".toList, [hexBytes blk.bytes, hexBytes buf.bytes])
  | .keyexp key => ("KEYEXP".toList, [hexBytes key.bytes])
  | .rkld sched => ("RKLD".toList, [hexBytes sched.bytes])
  | .rkrd r => ("RKRD".toList, [byteNumber r])
  | .stld blk => ("STLD".toList, [hexBytes blk.bytes])
  | .strd => ("STRD".toList, [])
  | .ark r => ("ARK".toList, [byteNumber r])
  | .subb => ("SUBB".toList, [])
  | .shrow => ("SHROW".toList, [])
  | .mixc => ("MIXC".toList, [])
  | .enc blk => ("ENC".toList, [hexBytes blk.bytes])
  | .cbciv iv => ("CBCIV".toList, [hexBytes iv.bytes])
  | .cbcenc data => ("CBCENC".toList, [streamText data])

/-- The textual form of a command: the mnemonic, then its operands separated by commas (R42). -/
def asmText (i : Instr) : List Char :=
  match asmParts i with
  | (name, []) => name
  | (name, operands) => name ++ [' '] ++ [',', ' '].intercalate operands

/-- The name of a status (R34). -/
def statusName : Byte → List Char
  | 0x00#8 => "OK".toList
  | 0x01#8 => "SIZE_MISMATCH".toList
  | 0x02#8 => "INVALID_INDEX".toList
  | 0x03#8 => "SINK_FAILURE".toList
  | 0x04#8 => "ILLEGAL_COMMAND".toList
  | 0x05#8 => "NO_KEY".toList
  | 0x06#8 => "NO_IV".toList
  | _ => []

/-- The textual form of a response packet (R42). -/
def responseText : List Byte → List Char
  | [] => []
  | status :: [] => "-> ".toList ++ statusName status
  | status :: result => "-> ".toList ++ statusName status ++ [' '] ++ hexBytes result

end Sys2Proof.Machine
end

