-- ==== Sys2Proof/Safety.lean ====
section
/-! DEFINITION. What the statements about runs are made of: the invariant of the registers, views of the port outputs,
the spec's tables of errors (R37, R113, R115) written a second time and independently of the decoder, and the pure
functions the spec compares the machine with. -/

namespace Sys2Proof.Safety

open Sys2Proof.Machine

/-! ### The registers between commands -/

/-- What holds of the registers between commands: `ERR` bits 7 and 6 are 0 (R13), `RND` is 0 (R11), and without the
chaining layer `CVV`, `ERR` bit 5 (NoIv) and `ERR` bit 2 (SinkFailure) are 0 (R100, R110, D17). -/
structure Inv (s : State) : Prop where
  reserved7 : s.err.getLsbD 7 = false
  reserved6 : s.err.getLsbD 6 = false
  idle : s.rnd = 0
  noChaining : s.cfg.chainingEn = false → s.cvv = false ∧ s.err.getLsbD 5 = false ∧ s.err.getLsbD 2 = false

/-- No command has failed since reset (R13). -/
def ErrorFree (s : State) : Prop := s.err = 0x00

/-! ### Views of what has left the block -/

/-- The output is a response packet. -/
def isResponse : PortOut → Bool
  | .response _ => true
  | .sinkWrite _ _ => false
  | .trace _ => false

/-- The output is a trace event. -/
def isTrace : PortOut → Bool
  | .response _ => false
  | .sinkWrite _ _ => false
  | .trace _ => true

/-- The blocks delivered to the sink, in order: those it accepted (R107). -/
def delivered : List PortOut → List Block
  | [] => []
  | .sinkWrite b .accept :: rest => b :: delivered rest
  | .sinkWrite _ .reject :: rest => delivered rest
  | .response _ :: rest => delivered rest
  | .trace _ :: rest => delivered rest

/-- The response packets sent, in order. -/
def responses : List PortOut → List (List Byte)
  | [] => []
  | .response r :: rest => r :: responses rest
  | .sinkWrite _ _ :: rest => responses rest
  | .trace _ :: rest => responses rest

/-- The same machine without a trace observer: `TRACE_EN` false and no event recorded (R98). -/
def untraced (s : State) : State :=
  { s with cfg := { s.cfg with traceEn := false }, out := s.out.filter fun o => !isTrace o }

/-! ### The errors of a packet, from the spec's tables -/

/-- The reserved opcodes of a build, the ranges of R37. -/
def Reserved (cfg : Config) (op : Byte) : Prop :=
  let n := op.toNat
  n = 0x00 ∨ (0x02 ≤ n ∧ n ≤ 0x0F) ∨ (0x15 ≤ n ∧ n ≤ 0x1F) ∨ (0x22 ≤ n ∧ n ≤ 0x2F) ∨ (0x37 ≤ n ∧ n ≤ 0x3F) ∨
    (0x43 ≤ n ∧ n ≤ 0x4F) ∨ (0x56 ≤ n ∧ n ≤ 0x5F) ∨ (0x61 ≤ n ∧ n ≤ 0x6F) ∨ (0x72 ≤ n ∧ n ≤ 0xFF) ∨
    (cfg.chainingEn = false ∧ (n = 0x70 ∨ n = 0x71))

/-- The first column of R113: opcode and payload length of every fixed-length command. -/
def fixedLengths : List (Nat × Nat) :=
  [(0x01, 0), (0x10, 2), (0x11, 2), (0x12, 2), (0x13, 1), (0x14, 2), (0x20, 1), (0x21, 1), (0x30, 4), (0x31, 4),
    (0x32, 8), (0x33, 8), (0x34, 5), (0x35, 17), (0x36, 32), (0x40, 16), (0x41, 176), (0x42, 1), (0x50, 16),
    (0x51, 0), (0x52, 1), (0x53, 0), (0x54, 0), (0x55, 0), (0x60, 16), (0x70, 16)]

/-- Check 1 of R115: the opcode is assigned in this build. -/
def opcodeAssigned (cfg : Config) (op : Byte) : Bool :=
  if op.toNat = 0x70 ∨ op.toNat = 0x71 then cfg.chainingEn else (fixedLengths.lookup op.toNat).isSome

/-- Check 2 of R115: the payload has the length of the format (CBCENC takes every length). -/
def lengthFits (op : Byte) (payload : List Byte) : Bool :=
  match fixedLengths.lookup op.toNat with
  | some n => payload.length == n
  | none => true

/-- Check 3 of R115: a reserved operand value, GFPOW with `n` = 0. -/
def operandReserved (op : Byte) (payload : List Byte) : Bool := op.toNat == 0x12 && payload[1]? == some 0x00

/-- Check 4 of R115: an index operand out of range (the InvalidIndex column of R113). -/
def indexOutOfRange (op : Byte) (payload : List Byte) : Bool :=
  let index (k : Nat) := ((payload[k]?).getD 0).toNat
  (op.toNat == 0x14 && decide (index 1 > 7)) || (op.toNat == 0x34 && decide (index 4 > 3)) ||
    (op.toNat == 0x35 && decide (index 16 > 3)) || (op.toNat == 0x42 && decide (index 0 > 10)) ||
    (op.toNat == 0x52 && decide (index 0 > 10))

/-- The command reads `RK` (the NoKey column of R113). -/
def readsKey (op : Byte) : Bool := op.toNat == 0x42 || op.toNat == 0x52 || op.toNat == 0x60 || op.toNat == 0x71

/-- The command reads `CV` (the NoIv column of R113). -/
def readsIv (op : Byte) : Bool := op.toNat == 0x71

/-- The first error, in the order of R115, of checks 1 to 6; `none` if all pass. -/
def firstError (s : State) : List Byte → Option Err
  | [] => some .illegalCommand
  | op :: payload =>
    if !opcodeAssigned s.cfg op then some .illegalCommand
    else if !lengthFits op payload then some .sizeMismatch
    else if operandReserved op payload then some .illegalCommand
    else if indexOutOfRange op payload then some .invalidIndex
    else if readsKey op && !s.kv then some .noKey
    else if readsIv op && !s.cvv then some .noIv
    else none

/-- Status code and `ERR` bit mask of an error class, the table of R112. -/
def errRow : Err → Byte × BitVec 8
  | .sizeMismatch => (0x01, 0x01)
  | .invalidIndex => (0x02, 0x02)
  | .sinkFailure => (0x03, 0x04)
  | .illegalCommand => (0x04, 0x08)
  | .noKey => (0x05, 0x10)
  | .noIv => (0x06, 0x20)

/-- The state after a command that fails at checks 1 to 6: one `ERR` bit and one response byte, nothing else (R116). -/
def failed (s : State) (e : Err) : State :=
  { s with err := s.err ||| (errRow e).2, out := s.out ++ [.response [(errRow e).1]] }

/-- The state after a command that writes no register: one response, status OK and these result bytes (R33). -/
def answered (s : State) (result : List Byte) : State := { s with out := s.out ++ [.response (0x00 :: result)] }

/-! ### Pure functions the spec compares the machine with -/

/-- The product of two polynomials over GF(2), without reduction: `a` shifted by every set bit of `b` (R47). -/
def polyMul (a b : Byte) : BitVec 16 :=
  ([0, 1, 2, 3, 4, 5, 6, 7] : List Nat).foldl
    (fun acc i => if b.getLsbD i then acc ^^^ (a.zeroExtend 16 <<< i) else acc) 0

/-- The remainder modulo x^8+x^4+x^3+x+1 (0x11B) by long division, degree 15 downward (R44, R47). -/
def polyMod (p : BitVec 16) : Byte :=
  (([15, 14, 13, 12, 11, 10, 9, 8] : List Nat).foldl
    (fun acc d => if acc.getLsbD d then acc ^^^ (0x11B#16 <<< (d - 8)) else acc) p).truncate 8

/-- The table of inverses of R49, transcribed: row = high nibble, column = low nibble, the leftmost byte of a row that of
column 0. -/
def inverseRows : List Nat :=
  [ 0x00018df6cb527bd1e84f29c0b0e1e5c7,
    0x74b4aa4b992b605f583ffdccff40eeb2,
    0x3a6e5af1554da8c9c10a98153044a2c2,
    0x2c45926cf3396642f235206f77bb5919,
    0x1dfe37672d31f569a764ab135425e909,
    0xed5c05ca4c2487bf183e22f051ec6117,
    0x165eafd349a63643f44791df3393213b,
    0x79b7978510b5ba3cb670d006a1fa8182 ] ++
  [ 0x837e7f809673be569b9e95d9f702b9a4,
    0xde6a326dd88a84722a149f88f9dc899a,
    0xfb7c2ec38fb8654826c8124acee7d262,
    0x0ce01fef11757871a58e763dbdbc8657,
    0x0b282fa3dad4e40fa92753041bfcace6,
    0x7a07ae63c5dbe2ea948bc4d59df8906b,
    0xb10dd6ebc60ecfad084ed7e35d501eb3,
    0x5b2338346846038cdd9c7da0cd1a411c ]

/-- Byte `n` of a Block, in the container's index 0..15 (R64). -/
def byteIndex (b : Block) (n : Nat) : Byte := b.bytes.getD n 0

/-- The Block of the bytes at these indices, in this order. -/
def pick (b : Block) (idx : List Nat) : Block := blockAt (idx.map (byteIndex b)) 0

/-- The three stages before AddRoundKey in rounds 1 to 9, with the events of round `r` (R97). -/
def roundTrace (k : Schedule) (r : Fin 11) (st : Block) : List TraceEvent × Block :=
  let n : BitVec 4 := BitVec.ofNat 4 r.val
  let a := subBytes st
  let b := shiftRows a
  let c := mixColumns b
  let d := addRoundKey c (roundKey k r)
  ([⟨n, .subb, a⟩, ⟨n, .shrow, b⟩, ⟨n, .mixc, c⟩, ⟨n, .ark, d⟩], d)

/-- The events of the rounds in a list, and the state after them. -/
def roundsTrace (k : Schedule) : List (Fin 11) → Block → List TraceEvent × Block
  | [], st => ([], st)
  | r :: rest, st =>
    let x := roundTrace k r st
    let y := roundsTrace k rest x.2
    (x.1 ++ y.1, y.2)

/-- The 40 events of one Encrypt, in the order of R97 (R98). -/
def encryptTrace (pt : Block) (k : Schedule) : List TraceEvent :=
  let s0 := addRoundKey (fill pt) (roundKey k 0)
  let x := roundsTrace k [1, 2, 3, 4, 5, 6, 7, 8, 9] s0
  let a := subBytes x.2
  let b := shiftRows a
  [⟨0, .ark, s0⟩] ++ x.1 ++ [⟨10, .subb, a⟩, ⟨10, .shrow, b⟩, ⟨10, .ark, addRoundKey b (roundKey k 10)⟩]

/-- What one Encrypt puts on the trace port of a build (R98). -/
def traceOut (cfg : Config) (pt : Block) (k : Schedule) : List PortOut :=
  if cfg.traceEn then (encryptTrace pt k).map .trace else []

/-- The ciphertext blocks of a chain: `c_i = Encrypt(c_(i-1) ^ P_i)`, `c_(-1)` the chaining value (R104, R105). -/
def cbcChain (k : Schedule) : Block → List Block → List Block
  | _, [] => []
  | cv, p :: rest =>
    let c := encrypt (blockXor cv p) k
    c :: cbcChain k c rest

/-- The outputs of the block loop while the sink accepts: for every block the trace of its encryption, then the
accepted write (R105, R109). -/
def acceptedOut (cfg : Config) (k : Schedule) : Block → List Block → List PortOut
  | _, [] => []
  | cv, p :: rest =>
    let x := blockXor cv p
    let c := encrypt x k
    traceOut cfg x k ++ [.sinkWrite c .accept] ++ acceptedOut cfg k c rest

/-- Encrypt on the external-order image of the state, with no Fill and no Drain (R88): round keys XORed byte by byte,
ShiftRows the index list, MixColumns on the four consecutive Words. -/
def externalEncrypt (pt : Block) (k : Schedule) : Block :=
  let sub (e : Block) : Block := ⟨subWord e.w0, subWord e.w1, subWord e.w2, subWord e.w3⟩
  let shift (e : Block) : Block := pick e [0, 5, 10, 15, 4, 9, 14, 3, 8, 13, 2, 7, 12, 1, 6, 11]
  let mix (e : Block) : Block := ⟨mixColumn e.w0, mixColumn e.w1, mixColumn e.w2, mixColumn e.w3⟩
  let full (e : Block) (r : Fin 11) : Block := blockXor (mix (shift (sub e))) (roundKey k r)
  let e9 := ([1, 2, 3, 4, 5, 6, 7, 8, 9] : List (Fin 11)).foldl full (blockXor pt (roundKey k 0))
  blockXor (shift (sub e9)) (roundKey k 10)

/-! ### The tables the statements compare with -/

/-- The opcode map of R36: opcode and mnemonic. -/
def opcodeMap : List (Nat × List Char) :=
  [(0x01, "STAT".toList), (0x10, "GFADD".toList), (0x11, "GFMUL".toList), (0x12, "GFPOW".toList),
    (0x13, "GFINV".toList), (0x14, "GFBIT".toList), (0x20, "SBOXF".toList), (0x21, "SBOXI".toList),
    (0x30, "ROTW".toList), (0x31, "SUBW".toList), (0x32, "XORW".toList), (0x33, "XORWC".toList),
    (0x34, "WBYTE".toList), (0x35, "BWORD".toList), (0x36, "BXOR".toList), (0x40, "KEYEXP".toList),
    (0x41, "RKLD".toList), (0x42, "RKRD".toList), (0x50, "STLD".toList), (0x51, "STRD".toList), (0x52, "ARK".toList),
    (0x53, "SUBB".toList), (0x54, "SHROW".toList), (0x55, "MIXC".toList), (0x60, "ENC".toList),
    (0x70, "CBCIV".toList), (0x71, "CBCENC".toList)]

/-- Where a command's index or count operand stands in the payload (R114: `i` of GFBIT, WBYTE, BWORD; `r` of RKRD, ARK;
`n` of GFPOW). -/
def operandPosition (op : Byte) : Option Nat :=
  ([(0x12, 1), (0x14, 1), (0x34, 4), (0x35, 16), (0x42, 0), (0x52, 0)] : List (Nat × Nat)).lookup op.toNat

/-- A payload of any other length than `n` is answered SIZE_MISMATCH and changes nothing else (R39). -/
def OnlyLength (op : Byte) (n : Nat) : Prop :=
  ∀ (s : State) (p : List Byte), p.length ≠ n → runPacket (op :: p) s = .next (failed s .sizeMismatch)

/-- The command reads or writes no register but `ERR` (R16): the field unit, the S-box, the Word and Block operations. -/
def isPure : Instr → Bool
  | .gfadd _ _ | .gfmul _ _ | .gfpow _ _ | .gfinv _ | .gfbit _ _ | .sboxf _ | .sboxi _ | .rotw _ | .subw _ | .xorw _ _
  | .xorwc _ _ | .wbyte _ _ | .bword _ _ | .bxor _ _ => true
  | .stat | .keyexp _ | .rkld _ | .rkrd _ | .stld _ | .strd | .ark _ | .subb | .shrow | .mixc | .enc _ | .cbciv _
  | .cbcenc _ => false

/-- The command writes `ST` (the "written by" column of R6). -/
def writesSt : Instr → Bool
  | .stld _ | .ark _ | .subb | .shrow | .mixc | .enc _ | .cbcenc _ => true
  | .stat | .gfadd _ _ | .gfmul _ _ | .gfpow _ _ | .gfinv _ | .gfbit _ _ | .sboxf _ | .sboxi _ | .rotw _ | .subw _
  | .xorw _ _ | .xorwc _ _ | .wbyte _ _ | .bword _ _ | .bxor _ _ | .keyexp _ | .rkld _ | .rkrd _ | .strd
  | .cbciv _ => false

/-- The command writes `RK` and `KV` (R6). -/
def writesRk : Instr → Bool
  | .keyexp _ | .rkld _ => true
  | .stat | .gfadd _ _ | .gfmul _ _ | .gfpow _ _ | .gfinv _ | .gfbit _ _ | .sboxf _ | .sboxi _ | .rotw _ | .subw _
  | .xorw _ _ | .xorwc _ _ | .wbyte _ _ | .bword _ _ | .bxor _ _ | .rkrd _ | .stld _ | .strd | .ark _ | .subb
  | .shrow | .mixc | .enc _ | .cbciv _ | .cbcenc _ => false

end Sys2Proof.Safety
end

