-- ==== Sys2Proof/Certificates/Slice0/Obligations.lean ====
section
/-! DEFINITION. The statements for the provers, from the numbered rules of spec/. -/

open Sys2Proof Sys2Proof.Machine Sys2Proof.Safety

/-! ### Reset, steps and packets -/

/-- R122: the values after reset that the spec gives. `RK` and `CV` are unspecified there and nothing is said of
them. -/
def Obligations.ResetValues : Prop :=
  State.reset.kv = false ∧ (∀ n, byteIndex State.reset.st n = 0x00) ∧ State.reset.rnd = 0 ∧ State.reset.cvv = false ∧
    State.reset.err = 0x00 ∧ statusView State.reset = 0x00 ∧ State.reset.cmdIn = [] ∧ State.reset.out = []

/-- A packet at the port that decodes to a command is run as that command, on the state with the packet taken from the
port; one the decoder rejects is answered with the error it is rejected by. -/
def Obligations.StepRunsDecodedCommand : Prop :=
  ∀ (s : State) (p : List Byte) (rest : List HostEvent), s.cmdIn = .packet p :: rest →
    (∀ i, decode s.cfg p = .ok i → step s = exec i { s with cmdIn := rest }) ∧
      ∀ e, decode s.cfg p = .error e → step s = .next (failed { s with cmdIn := rest } e)

/-- R123: reset, between commands or in the middle of one, leaves every register at its value of R122, keeps what has
left the block, sends no response; afterwards the block waits for a packet. Inside a command, the sink writes made
before the reset are the first `writes` the command makes, and they stay. The shape of the waiting step (the state
unchanged) is this model's (log entry 5), so is the way a reset falls inside a command (log entry 8) and the counter of
writes (log entry 7). -/
def Obligations.ResetAtAnyTime : Prop :=
  ∀ (s : State) (rest : List HostEvent) (p : List Byte) (writes traces : Nat),
    (s.cmdIn = .reset :: rest ∨ s.cmdIn = .resetDuring p writes traces :: rest) →
      ∃ t left, step s = .next t ∧ t.kv = false ∧ (∀ n, byteIndex t.st n = 0x00) ∧ t.rnd = 0 ∧ t.cvv = false ∧
        t.err = 0x00 ∧ t.cmdIn = rest ∧ t.cfg = s.cfg ∧ t.out = s.out ++ left ∧ (∀ o ∈ left, isResponse o = false) ∧
        t.sinkCount = s.sinkCount + countWrites left ∧ (s.cmdIn = .reset :: rest → left = []) ∧
        (∀ u, s.cmdIn = .resetDuring p writes traces :: rest → runPacket p { s with cmdIn := rest } = .next u →
          t.out <+: u.out ∧ countWrites left = min writes (countWrites (u.out.drop s.out.length))) ∧
        (rest = [] → step t = .next t)

/-- No step faults and none refuses: every packet, every reset and every wait has a next state. R118 speaks of packets
only; that a reset and a wait are steps with a next state is this model's choice (log entry 5), and that no step faults
or refuses is read from R116 and R118 (log entry 15). -/
def Obligations.StepNeverStops : Prop := ∀ s : State, ∃ t, step s = .next t

/-- R33: exactly one response to a packet, sent last; status OK with the result bytes of the command's format, or one
status byte. -/
def Obligations.EveryPacketOneResponse : Prop :=
  ∀ (s : State) (p : List Byte) (rest : List HostEvent), s.cmdIn = .packet p :: rest →
    ∃ t before r, step s = .next t ∧ t.cmdIn = rest ∧ t.out = s.out ++ before ++ [.response r] ∧
      (∀ o ∈ before, isResponse o = false) ∧
      ((∃ i result, decode s.cfg p = .ok i ∧ r = 0x00 :: result ∧ result.length = i.resultLength) ∨
        ∃ e, r = [(errRow e).1])

/-! ### Encoding -/

/-- R37: a reserved opcode or no opcode byte is ILLEGAL_COMMAND, whatever the payload. -/
def Obligations.ReservedOpcodesIllegal : Prop :=
  ∀ (s : State) (rest : List HostEvent),
    (s.cmdIn = .packet [] :: rest → step s = .next (failed { s with cmdIn := rest } .illegalCommand)) ∧
      ∀ op p, s.cmdIn = .packet (op :: p) :: rest → Reserved s.cfg op →
        step s = .next (failed { s with cmdIn := rest } .illegalCommand)

/-- R39: an assigned opcode with a payload of another length is SIZE_MISMATCH; CBCENC takes every length. -/
def Obligations.WrongLengthSizeMismatch : Prop :=
  (∀ (s : State) (op : Byte) (n : Nat) (p : List Byte) (rest : List HostEvent), (op.toNat, n) ∈ fixedLengths →
      (op = 0x70 → s.cfg.chainingEn = true) → p.length ≠ n → s.cmdIn = .packet (op :: p) :: rest →
      step s = .next (failed { s with cmdIn := rest } .sizeMismatch)) ∧
    ∀ (cfg : Config) (data : List Byte), cfg.chainingEn = true → decode cfg (0x71 :: data) = .ok (.cbcenc data)

/-- R36: the opcode byte, and it alone, selects the command; the table lists every assigned value. -/
def Obligations.OpcodeMapSelectsCommand : Prop :=
  (∀ (cfg : Config) (op : Byte) (p : List Byte) (i : Instr), decode cfg (op :: p) = .ok i →
      (op.toNat, (asmParts i).1) ∈ opcodeMap) ∧
    ∀ (cfg : Config) (op : Byte) (name : List Char), cfg.chainingEn = true → (op.toNat, name) ∈ opcodeMap →
      ∃ p i, decode cfg (op :: p) = .ok i ∧ (asmParts i).1 = name

/-- Encoding a command and decoding the packet gives the command back, with every operand. -/
def Obligations.DecodeOfEncode : Prop :=
  ∀ (cfg : Config) (i : Instr), i.exists? cfg = true → decode cfg (encode i) = .ok i

/-- A packet that decodes is the encoding of what it decodes to: no byte of it is dropped. -/
def Obligations.EncodeOfDecode : Prop :=
  ∀ (cfg : Config) (p : List Byte) (i : Instr), decode cfg p = .ok i → encode i = p ∧ i.exists? cfg = true

/-- Packets written out from the spec's examples (R42, R56, R75, R84) decode to the commands they stand for. -/
def Obligations.KnownPacketsDecode : Prop :=
  decode Config.default [0x11, 0x57, 0x83] = .ok (.gfmul 0x57 0x83) ∧
    decode Config.default [0x33, 0x8a, 0x84, 0xeb, 0x01, 0x01, 0x00, 0x00, 0x00] =
      .ok (.xorwc ⟨0x8a, 0x84, 0xeb, 0x01⟩ 0x00000001) ∧
    decode Config.default [0x14, 0x57, 0x08] = .ok (.gfbit 0x57 8) ∧
    decode Config.default [0x34, 0xa0, 0xfa, 0xfe, 0x17, 0x03] = .ok (.wbyte ⟨0xa0, 0xfa, 0xfe, 0x17⟩ 3) ∧
    decode Config.default [0x52, 0x0a] = .ok (.ark 10) ∧ decode Config.default [0x55] = .ok .mixc

/-! ### Errors -/

/-- R115, R116: the first error of checks 1 to 6 is the one reported, and it changes one `ERR` bit and nothing else; a
packet with none succeeds, but for a sink failure of CBCENC. -/
def Obligations.ErrorsInPriorityOrder : Prop :=
  ∀ (s : State) (p : List Byte) (rest : List HostEvent), s.cmdIn = .packet p :: rest →
    (∀ e, firstError s p = some e → step s = .next (failed { s with cmdIn := rest } e)) ∧
      (firstError s p = none →
        ∃ t before r, step s = .next t ∧ t.out = s.out ++ before ++ [.response r] ∧
          (r.head? = some 0x00 ∨ (r = [0x03] ∧ p.head? = some 0x71)))

/-- R114: the value of a data byte never decides whether a command fails; only the length, the index and count operands
and the state do. -/
def Obligations.DataNeverFails : Prop :=
  ∀ (s : State) (op : Byte) (p q : List Byte), p.length = q.length →
    (∀ k, operandPosition op = some k → p[k]? = q[k]?) →
      ∃ t u r1 r2, runPacket (op :: p) s = .next t ∧ runPacket (op :: q) s = .next u ∧
        t.out.getLast? = some (.response r1) ∧ u.out.getLast? = some (.response r2) ∧ r1.head? = r2.head?

/-- R13: after a packet, `ERR` is what it was with bit `k-1` added for a response of status code `k`. -/
def Obligations.ErrIsSticky : Prop :=
  ∀ (s : State) (p : List Byte) (rest : List HostEvent), s.cmdIn = .packet p :: rest →
    ∃ t r, step s = .next t ∧ t.out.getLast? = some (.response r) ∧
      ((r.head? = some 0x00 ∧ t.err = s.err) ∨
        ∃ e, r = [(errRow e).1] ∧ t.err = s.err ||| (1#8 <<< ((errRow e).1.toNat - 1)))

/-- R13: `ERR` is read by STAT and by nothing else, and changes no command's behaviour. -/
def Obligations.ErrReadByStatOnly : Prop :=
  ∀ (i : Instr) (s : State) (e : BitVec 8), i ≠ .stat →
    ∃ t u, exec i s = .next t ∧ exec i { s with err := e } = .next u ∧ { u with err := t.err } = t

/-! ### Whole-machine rules about the registers -/

/-- The invariant holds after reset. -/
def Obligations.InvariantAtReset : Prop := Inv State.reset

/-- Every step keeps the invariant: `ERR` bits 7 and 6 zero, `RND` zero between commands, and without the chaining layer
no `CVV` and no error of it. -/
def Obligations.InvariantKeptByEveryStep : Prop := ∀ s t : State, Inv s → step s = .next t → Inv t

/-- R7: only KEYEXP and RKLD write `RK`, and each writes all of it. -/
def Obligations.RoundKeyFileWrittenWhole : Prop :=
  ∀ (i : Instr) (s t : State), exec i s = .next t →
    (writesRk i = false → t.rk = s.rk ∧ t.kv = s.kv) ∧
      (∀ key, i = .keyexp key → t.rk = keyExpand key ∧ t.kv = true) ∧
      ∀ sched, i = .rkld sched → t.rk = sched ∧ t.kv = true

/-- R8, R10, R101: no command clears `KV` or `CVV`; only KEYEXP and RKLD set `KV`, only CBCIV sets `CVV`; `CV` is written
by CBCIV and CBCENC only. -/
def Obligations.ValidFlagsAndChainingValue : Prop :=
  ∀ (i : Instr) (s t : State), exec i s = .next t →
    (s.kv = true → t.kv = true) ∧ (s.cvv = true → t.cvv = true) ∧
      (t.kv = true → s.kv = true ∨ writesRk i = true) ∧ (t.cvv = true → s.cvv = true ∨ ∃ iv, i = .cbciv iv) ∧
      ((∀ iv, i ≠ .cbciv iv) → (∀ data, i ≠ .cbcenc data) → t.cv = s.cv)

/-- R6, R9, R11: `ST` changes only by its writers, and a command other than ENC and CBCENC leaves `RND` alone. -/
def Obligations.StateRegisterWriters : Prop :=
  ∀ (i : Instr) (s t : State), exec i s = .next t →
    (writesSt i = false → t.st = s.st) ∧
      ((∀ blk, i ≠ .enc blk) → (∀ data, i ≠ .cbcenc data) → t.rnd = s.rnd) ∧ (s.rnd = 0 → t.rnd = 0)

/-- R16: the field, S-box, Word and Block commands touch no register except `ERR` when they raise, and their response
does not depend on any register. -/
def Obligations.PureCommandsTouchNoRegister : Prop :=
  ∀ (i : Instr), isPure i = true →
    (∃ result, ∀ s : State, exec i s = .next (answered s result)) ∨ ∃ e, ∀ s : State, exec i s = .next (failed s e)

/-- No step changes the build's parameters or what the sink will answer, or takes back anything that has left the
block. That the parameters stand in State is this model's choice (log entry 1), and so are the sink's answers and the
counter of writes as fields (log entry 7) and the one list of outputs (log entry 6). -/
def Obligations.BuildAndOutputsKept : Prop :=
  ∀ s t : State, step s = .next t →
    t.cfg = s.cfg ∧ t.sinkAnswers = s.sinkAnswers ∧ s.sinkCount ≤ t.sinkCount ∧ s.out <+: t.out

/-- R8, U9: while `KV` = 0 nothing the block sends depends on `RK`, and no register but `RK` does. The reset value of
`RK`, zeros, is this model's choice (log entry 3); this statement says it is not observable. -/
def Obligations.UnloadedKeysUnobservable : Prop :=
  ∀ (s : State) (k : Schedule), s.kv = false →
    ∃ t u, step s = .next t ∧ step { s with rk := k } = .next u ∧ { u with rk := t.rk } = t ∧
      (t.kv = true → u.rk = t.rk)

/-- R10, U10: while `CVV` = 0 nothing the block sends depends on `CV`, and no register but `CV` does. The reset value of
`CV`, zeros, is this model's choice (log entry 4). -/
def Obligations.UnloadedIvUnobservable : Prop :=
  ∀ (s : State) (v : Block), s.cvv = false →
    ∃ t u, step s = .next t ∧ step { s with cv := v } = .next u ∧ { u with cv := t.cv } = t ∧
      (t.cvv = true → u.cv = t.cv)

/-- R98: recording the trace changes no register and no other output: the machine without an observer makes the same
step. -/
def Obligations.TraceHasNoEffect : Prop :=
  ∀ s t : State, step s = .next t → step (untraced s) = .next (untraced t)

/-! ### The field unit -/

/-- R45: GfAdd is exclusive or, commutative, associative, self-inverse. -/
def Obligations.GfAddLaws : Prop :=
  ∀ a b c : Byte,
    gfAdd a b = a ^^^ b ∧ gfAdd a b = gfAdd b a ∧ gfAdd (gfAdd a b) c = gfAdd a (gfAdd b c) ∧ gfAdd a a = 0 ∧
      gfAdd (gfAdd a b) b = a ∧ gfAdd a 0 = a

/-- R47: GfMul is the product of the polynomials modulo x^8+x^4+x^3+x+1. -/
def Obligations.GfMulIsPolynomialProduct : Prop := ∀ a b : Byte, gfMul a b = polyMod (polyMul a b)

/-- R47: the laws of GfMul, and its special cases for MixColumns. -/
def Obligations.GfMulLaws : Prop :=
  ∀ a b c : Byte,
    gfMul a b = gfMul b a ∧ gfMul a (gfAdd b c) = gfAdd (gfMul a b) (gfMul a c) ∧ gfMul a 1 = a ∧ gfMul a 0 = 0 ∧
      gfMul 0 a = 0 ∧ gfMul (gfMul a b) c = gfMul a (gfMul b c) ∧ (gfMul a b = 0 → a = 0 ∨ b = 0) ∧
      gfMul 2 a = (if a.getLsbD 7 then (a <<< 1) ^^^ 0x1B else a <<< 1) ∧ gfMul 3 a = gfMul 2 a ^^^ a

/-- R48: the laws of GfPow. -/
def Obligations.GfPowLaws : Prop :=
  ∀ (a : Byte) (n : Nat) (h : n ≠ 0),
    gfPow a 1 (by decide) = a ∧ gfPow a 2 (by decide) = gfMul a a ∧
      gfPow a (n + 1) (by omega) = gfMul (gfPow a n h) a ∧ gfPow 0 n h = 0 ∧
      (a ≠ 0 → gfPow a 255 (by decide) = 0x01 ∧ gfPow a (n + 255) (by omega) = gfPow a n h)

/-- R49: GfInv is the 254th power and the multiplicative inverse, 0 its own, its own inverse function, and its table. -/
def Obligations.GfInvIsInverse : Prop :=
  ∀ a : Byte,
    gfInv a = gfPow a 254 (by decide) ∧ (a ≠ 0 → gfMul a (gfInv a) = 0x01) ∧ gfInv 0x00 = 0x00 ∧ gfInv 0x01 = 0x01 ∧
      gfInv (gfInv a) = a ∧ gfInv a = romRead inverseRows a

/-- R52, R53, R55: GFADD, GFMUL, GFINV. -/
def Obligations.FieldCommands : Prop :=
  (OnlyLength 0x10 2 ∧ ∀ (a b : Byte) (s : State), decode s.cfg [0x10, a, b] = .ok (.gfadd a b) ∧
      exec (.gfadd a b) s = .next (answered s [gfAdd a b])) ∧
    (OnlyLength 0x11 2 ∧ ∀ (a b : Byte) (s : State), decode s.cfg [0x11, a, b] = .ok (.gfmul a b) ∧
      exec (.gfmul a b) s = .next (answered s [gfMul a b])) ∧
    (OnlyLength 0x13 1 ∧ ∀ (a : Byte) (s : State), decode s.cfg [0x13, a] = .ok (.gfinv a) ∧
      exec (.gfinv a) s = .next (answered s [gfInv a]))

/-- R54: GFPOW, `n` = 0 reserved. -/
def Obligations.PowerCommand : Prop :=
  OnlyLength 0x12 2 ∧ ∀ (a n : Byte) (s : State), decode s.cfg [0x12, a, n] = .ok (.gfpow a n) ∧
    (n = 0 → exec (.gfpow a n) s = .next (failed s .illegalCommand)) ∧
    ∀ h : n.toNat ≠ 0, exec (.gfpow a n) s = .next (answered s [gfPow a n.toNat h])

/-- R50, R56: GFBIT, indices 0 to 7. -/
def Obligations.BitCommand : Prop :=
  OnlyLength 0x14 2 ∧ ∀ (a i : Byte) (s : State), decode s.cfg [0x14, a, i] = .ok (.gfbit a i) ∧
    (7 < i.toNat → exec (.gfbit a i) s = .next (failed s .invalidIndex)) ∧
    (i.toNat ≤ 7 → exec (.gfbit a i) s = .next (answered s [(a >>> i.toNat) &&& 1]))

/-! ### The S-box -/

/-- R60: the ROMs hold the values of the functions, and the inverse table inverts the forward one. -/
def Obligations.SboxTables : Prop :=
  ∀ x : Byte, sbox x = sboxF x ∧ isbox x = sboxI x ∧ isbox (sbox x) = x

/-- R59: SboxI and SboxF invert each other; SboxF is a permutation; no fixed point, no complement. -/
def Obligations.SboxContract : Prop :=
  ∀ x y : Byte, sboxI (sboxF x) = x ∧ sboxF (sboxI x) = x ∧ (sboxF x = sboxF y → x = y) ∧ sboxF x ≠ x ∧
    sboxI x ≠ x ∧ sboxF x ≠ ~~~x

/-- R61, R62: SBOXF and SBOXI answer for every byte. -/
def Obligations.SboxCommands : Prop :=
  (OnlyLength 0x20 1 ∧ ∀ (c : Byte) (s : State), decode s.cfg [0x20, c] = .ok (.sboxf c) ∧
      exec (.sboxf c) s = .next (answered s [sbox c]) ∧ sbox c = sboxF c) ∧
    (OnlyLength 0x21 1 ∧ ∀ (c : Byte) (s : State), decode s.cfg [0x21, c] = .ok (.sboxi c) ∧
      exec (.sboxi c) s = .next (answered s [isbox c]) ∧ isbox c = sboxI c)

/-! ### Words and Blocks -/

/-- R71 to R74: ROTW, SUBW, XORW, XORWC, byte by byte. -/
def Obligations.WordCommands : Prop :=
  OnlyLength 0x30 4 ∧ OnlyLength 0x31 4 ∧ OnlyLength 0x32 8 ∧ OnlyLength 0x33 8 ∧
    ∀ (a0 a1 a2 a3 b0 b1 b2 b3 : Byte) (c : BitVec 32) (s : State),
      (decode s.cfg [0x30, a0, a1, a2, a3] = .ok (.rotw ⟨a0, a1, a2, a3⟩) ∧
        exec (.rotw ⟨a0, a1, a2, a3⟩) s = .next (answered s [a1, a2, a3, a0])) ∧
      (decode s.cfg [0x31, a0, a1, a2, a3] = .ok (.subw ⟨a0, a1, a2, a3⟩) ∧
        exec (.subw ⟨a0, a1, a2, a3⟩) s = .next (answered s [sbox a0, sbox a1, sbox a2, sbox a3])) ∧
      (decode s.cfg [0x32, a0, a1, a2, a3, b0, b1, b2, b3] = .ok (.xorw ⟨a0, a1, a2, a3⟩ ⟨b0, b1, b2, b3⟩) ∧
        exec (.xorw ⟨a0, a1, a2, a3⟩ ⟨b0, b1, b2, b3⟩) s =
          .next (answered s [a0 ^^^ b0, a1 ^^^ b1, a2 ^^^ b2, a3 ^^^ b3])) ∧
      ((∃ k : BitVec 32, k.toNat = b0.toNat + 256 * b1.toNat + 65536 * b2.toNat + 16777216 * b3.toNat ∧
          decode s.cfg [0x33, a0, a1, a2, a3, b0, b1, b2, b3] = .ok (.xorwc ⟨a0, a1, a2, a3⟩ k) ∧
          exec (.xorwc ⟨a0, a1, a2, a3⟩ k) s = .next (answered s [a0 ^^^ b0, a1 ^^^ b1, a2 ^^^ b2, a3 ^^^ b3])) ∧
        exec (.xorwc ⟨a0, a1, a2, a3⟩ c) s =
          .next (answered s [a0 ^^^ BitVec.ofNat 8 c.toNat, a1 ^^^ BitVec.ofNat 8 (c.toNat / 256),
            a2 ^^^ BitVec.ofNat 8 (c.toNat / 65536), a3 ^^^ BitVec.ofNat 8 (c.toNat / 16777216)]))

/-- R75, R76: WBYTE and BWORD, indices 0 to 3. -/
def Obligations.AccessorCommands : Prop :=
  (OnlyLength 0x34 5 ∧ ∀ (w : Word) (i : Byte) (s : State),
      decode s.cfg (0x34 :: w.bytes ++ [i]) = .ok (.wbyte w i) ∧
      (3 < i.toNat → exec (.wbyte w i) s = .next (failed s .invalidIndex)) ∧
      ∀ k : Fin 4, i.toNat = k.val → exec (.wbyte w i) s = .next (answered s [w.bytes[k.val]'k.isLt])) ∧
    (OnlyLength 0x35 17 ∧ ∀ (blk : Block) (i : Byte) (s : State),
      decode s.cfg (0x35 :: blk.bytes ++ [i]) = .ok (.bword blk i) ∧
      (3 < i.toNat → exec (.bword blk i) s = .next (failed s .invalidIndex)) ∧
      (i.toNat ≤ 3 → exec (.bword blk i) s =
        .next (answered s ((blk.bytes.drop (4 * i.toNat)).take 4))))

/-- R77: BXOR, sixteen bytes position by position, no register touched. -/
def Obligations.BlockXorCommand : Prop :=
  OnlyLength 0x36 32 ∧ ∀ (blk buf : Block) (s : State),
    decode s.cfg (0x36 :: blk.bytes ++ buf.bytes) = .ok (.bxor blk buf) ∧
    exec (.bxor blk buf) s = .next (answered s (List.zipWith (· ^^^ ·) buf.bytes blk.bytes))

/-! ### Key schedule -/

/-- R15: RCON holds the successive powers of x, RCON[r] for r = 1..10. -/
def Obligations.RoundConstantsArePowers : Prop :=
  rcon 0 = 0x00 ∧ rcon 1 = 0x01 ∧ (∀ r : Fin 9, rcon ⟨r.val + 2, by omega⟩ = gfMul (rcon ⟨r.val + 1, by omega⟩) 0x02) ∧
    [rcon 0, rcon 1, rcon 2, rcon 3, rcon 4, rcon 5, rcon 6, rcon 7, rcon 8, rcon 9, rcon 10] =
      [0x00, 0x01, 0x02, 0x04, 0x08, 0x10, 0x20, 0x40, 0x80, 0x1B, 0x36]

/-- R78: the expansion, Word by Word. -/
def Obligations.KeyExpansionWords : Prop :=
  ∀ key : Block, roundKey (keyExpand key) 0 = key ∧
    ∀ r : Fin 10,
      let prev := roundKey (keyExpand key) r.castSucc
      let cur := roundKey (keyExpand key) r.succ
      let p := prev.w3
      let temp : Word := ⟨sbox p.b1 ^^^ rcon r.succ, sbox p.b2, sbox p.b3, sbox p.b0⟩
      cur.w0 = xorWord temp prev.w0 ∧ cur.w1 = xorWord cur.w0 prev.w1 ∧ cur.w2 = xorWord cur.w1 prev.w2 ∧
        cur.w3 = xorWord cur.w2 prev.w3

/-- R80: KEYEXP writes all of `RK` and `KV`, whatever they held, and nothing else. -/
def Obligations.KeyExpandCommand : Prop :=
  OnlyLength 0x40 16 ∧ ∀ (key : Block) (s : State), decode s.cfg (0x40 :: key.bytes) = .ok (.keyexp key) ∧
    exec (.keyexp key) s = .next { answered s [] with rk := keyExpand key, kv := true }

/-- R81: RKLD writes all of `RK` and `KV`, whatever the eleven Blocks are. -/
def Obligations.RoundKeyLoadCommand : Prop :=
  OnlyLength 0x41 176 ∧ ∀ (k : Schedule) (s : State), decode s.cfg (0x41 :: k.bytes) = .ok (.rkld k) ∧
    exec (.rkld k) s = .next { answered s [] with rk := k, kv := true } ∧
    ∀ r : Fin 11, (roundKey k r).bytes = (k.bytes.drop (16 * r.val)).take 16

/-- R82: RKRD, index before valid flag. -/
def Obligations.RoundKeyReadCommand : Prop :=
  OnlyLength 0x42 1 ∧ ∀ (r : Byte) (s : State), decode s.cfg [0x42, r] = .ok (.rkrd r) ∧
    (10 < r.toNat → exec (.rkrd r) s = .next (failed s .invalidIndex)) ∧
    (r.toNat ≤ 10 → s.kv = false → exec (.rkrd r) s = .next (failed s .noKey)) ∧
    ∀ k : Fin 11, r.toNat = k.val → s.kv = true → exec (.rkrd r) s = .next (answered s (roundKey s.rk k).bytes)

/-! ### Round pipeline -/

/-- R22: Fill and Drain by index, and as one self-inverse permutation. -/
def Obligations.FillDrainLayout : Prop :=
  ∀ b : Block, (∀ r c : Fin 4, byteIndex (fill b) (4 * r.val + c.val) = byteIndex b (r.val + 4 * c.val)) ∧
    (∀ r c : Fin 4, byteIndex (drain b) (r.val + 4 * c.val) = byteIndex b (4 * r.val + c.val)) ∧
    drain (fill b) = b ∧ fill (drain b) = b ∧ fill (fill b) = b ∧ fill b = drain b ∧
    fill b = pick b [0, 4, 8, 12, 1, 5, 9, 13, 2, 6, 10, 14, 3, 7, 11, 15]

/-- R84 to R87: the four stages by index; AddRoundKey is its own inverse, four ShiftRows are the identity, a column of
four equal bytes is unchanged by MixColumns. -/
def Obligations.StagesByIndex : Prop :=
  ∀ (st k : Block),
    (∀ r c : Fin 4, byteIndex (addRoundKey st k) (4 * r.val + c.val) =
        byteIndex st (4 * r.val + c.val) ^^^ byteIndex k (4 * c.val + r.val)) ∧
    addRoundKey st k = blockXor st (fill k) ∧ drain (addRoundKey st k) = blockXor (drain st) k ∧
    addRoundKey (addRoundKey st k) k = st ∧
    (∀ n : Fin 16, byteIndex (subBytes st) n.val = sbox (byteIndex st n.val)) ∧
    (∀ r c : Fin 4, byteIndex (shiftRows st) (4 * r.val + c.val) = byteIndex st (4 * r.val + (c.val + r.val) % 4)) ∧
    shiftRows st = pick st [0, 1, 2, 3, 5, 6, 7, 4, 10, 11, 8, 9, 15, 12, 13, 14] ∧
    shiftRows st = ⟨st.w0, rotWord st.w1, rotWord (rotWord st.w2), rotWord (rotWord (rotWord st.w3))⟩ ∧
    (∀ c : Fin 4,
      let b0 := byteIndex st c.val
      let b1 := byteIndex st (c.val + 4)
      let b2 := byteIndex st (c.val + 8)
      let b3 := byteIndex st (c.val + 12)
      byteIndex (mixColumns st) c.val = gfMul 2 b0 ^^^ gfMul 3 b1 ^^^ b2 ^^^ b3 ∧
        byteIndex (mixColumns st) (c.val + 4) = b0 ^^^ gfMul 2 b1 ^^^ gfMul 3 b2 ^^^ b3 ∧
        byteIndex (mixColumns st) (c.val + 8) = b0 ^^^ b1 ^^^ gfMul 2 b2 ^^^ gfMul 3 b3 ∧
        byteIndex (mixColumns st) (c.val + 12) = gfMul 3 b0 ^^^ b1 ^^^ b2 ^^^ gfMul 2 b3) ∧
    shiftRows (shiftRows (shiftRows (shiftRows st))) = st ∧ ∀ v : Byte, mixColumn ⟨v, v, v, v⟩ = ⟨v, v, v, v⟩

/-- R88, R70: the stages on the external-order image of the state. -/
def Obligations.StagesOnExternalImage : Prop :=
  ∀ (st k : Block),
    drain (addRoundKey st k) = blockXor (drain st) k ∧ addRoundKey st k = fill (blockXor k (drain st)) ∧
    (∀ n : Fin 16, byteIndex (drain (subBytes st)) n.val = sbox (byteIndex (drain st) n.val)) ∧
    drain (shiftRows st) = pick (drain st) [0, 5, 10, 15, 4, 9, 14, 3, 8, 13, 2, 7, 12, 1, 6, 11] ∧
    drain (mixColumns st) =
      ⟨mixColumn (drain st).w0, mixColumn (drain st).w1, mixColumn (drain st).w2, mixColumn (drain st).w3⟩

/-- R89, R90: STLD and STRD. -/
def Obligations.StateLoadAndRead : Prop :=
  (OnlyLength 0x50 16 ∧ ∀ (blk : Block) (s : State), decode s.cfg (0x50 :: blk.bytes) = .ok (.stld blk) ∧
      exec (.stld blk) s = .next { answered s [] with st := fill blk }) ∧
    (OnlyLength 0x51 0 ∧ ∀ (s : State), decode s.cfg [0x51] = .ok .strd ∧
      exec .strd s = .next (answered s (drain s.st).bytes))

/-- R91: ARK, index before valid flag, any round key at any time. -/
def Obligations.AddRoundKeyCommand : Prop :=
  OnlyLength 0x52 1 ∧ ∀ (r : Byte) (s : State), decode s.cfg [0x52, r] = .ok (.ark r) ∧
    (10 < r.toNat → exec (.ark r) s = .next (failed s .invalidIndex)) ∧
    (r.toNat ≤ 10 → s.kv = false → exec (.ark r) s = .next (failed s .noKey)) ∧
    ∀ k : Fin 11, r.toNat = k.val → s.kv = true →
      exec (.ark r) s = .next { answered s [] with st := addRoundKey s.st (roundKey s.rk k) }

/-- R92, R93, R94: SUBB, SHROW, MIXC. -/
def Obligations.StageCommands : Prop :=
  OnlyLength 0x53 0 ∧ OnlyLength 0x54 0 ∧ OnlyLength 0x55 0 ∧ ∀ s : State,
    (decode s.cfg [0x53] = .ok .subb ∧ exec .subb s = .next { answered s [] with st := subBytes s.st }) ∧
    (decode s.cfg [0x54] = .ok .shrow ∧ exec .shrow s = .next { answered s [] with st := shiftRows s.st }) ∧
    (decode s.cfg [0x55] = .ok .mixc ∧ exec .mixc s = .next { answered s [] with st := mixColumns s.st })

/-! ### Cipher -/

/-- R99: ENC answers Encrypt of the block, leaves the final state in `ST` and `RND` at 0, sends the trace, touches
nothing else. -/
def Obligations.EncryptCommand : Prop :=
  OnlyLength 0x60 16 ∧ ∀ (blk : Block) (s : State), decode s.cfg (0x60 :: blk.bytes) = .ok (.enc blk) ∧
    (s.kv = false → exec (.enc blk) s = .next (failed s .noKey)) ∧
    (s.kv = true → exec (.enc blk) s = .next { s with
      st := fill (encrypt blk s.rk), rnd := 0,
      out := s.out ++ traceOut s.cfg blk s.rk ++ [.response (0x00 :: (encrypt blk s.rk).bytes)] })

/-- R98: 40 events for one Encrypt, in the order of the stages, the last showing the final state. -/
def Obligations.TraceOfOneEncryption : Prop :=
  ∀ (pt : Block) (k : Schedule),
    (encryptTrace pt k).length = 40 ∧
    (encryptTrace pt k).map (fun e => e.round.toNat) =
      [0] ++ ([1, 2, 3, 4, 5, 6, 7, 8, 9] : List Nat).flatMap (fun r => [r, r, r, r]) ++ [10, 10, 10] ∧
    (encryptTrace pt k).map (fun e => e.step) =
      [.ark] ++ (List.replicate 9 [Stage.subb, .shrow, .mixc, .ark]).flatten ++ [.subb, .shrow, .ark] ∧
    ((encryptTrace pt k).head?.map fun e => e.view) = some (addRoundKey (fill pt) (roundKey k 0)) ∧
    ((encryptTrace pt k).getLast?.map fun e => e.view) = some (fill (encrypt pt k))

/-- Encrypt is the pipeline on external-order bytes, without Fill and Drain (R88, R95). -/
def Obligations.EncryptOnExternalOrder : Prop := ∀ (pt : Block) (k : Schedule), encrypt pt k = externalEncrypt pt k

/-- R96: for fixed round keys no two blocks have the same ciphertext. -/
def Obligations.EncryptInjective : Prop := ∀ (k : Schedule) (p q : Block), encrypt p k = encrypt q k → p = q

/-- R43: the 42 commands of ENCSEQ leave the same `ST` and answer the same 16 bytes as ENC; what they add to the outputs
is 42 responses and nothing else, so they trace nothing. -/
def Obligations.EncseqEqualsEnc : Prop :=
  ∀ (blk : Block) (s : State), s.kv = true → (encSeq blk).length = 42 ∧
    ∃ t u new, runAll (encSeq blk) s = .next t ∧ exec (.enc blk) s = .next u ∧ t.st = u.st ∧
      t.out.getLast? = u.out.getLast? ∧ t.out = s.out ++ new ∧ new.length = 42 ∧
      (∀ o ∈ new, isResponse o = true) ∧ t = { s with st := t.st, out := t.out }

/-! ### Chaining -/

/-- R102, R103: the number of blocks, the padding count, the padded stream and its blocks. -/
def Obligations.PaddingOfStream : Prop :=
  ∀ data : List Byte,
    let nb := data.length / 16 + 1
    let pc := 16 * nb - data.length
    1 ≤ pc ∧ pc ≤ 16 ∧ (plaintextBlocks data).length = nb ∧
      (plaintextBlocks data).flatMap Block.bytes = data ++ List.replicate pc (BitVec.ofNat 8 pc)

/-- R108: CBCIV. -/
def Obligations.IvCommand : Prop :=
  ∀ (s : State),
    (s.cfg.chainingEn = true →
      (∀ iv : Block, decode s.cfg (0x70 :: iv.bytes) = .ok (.cbciv iv) ∧
        exec (.cbciv iv) s = .next { answered s [] with cv := iv, cvv := true }) ∧
      ∀ p, p.length ≠ 16 → runPacket (0x70 :: p) s = .next (failed s .sizeMismatch)) ∧
    (s.cfg.chainingEn = false → ∀ p, runPacket (0x70 :: p) s = .next (failed s .illegalCommand))

/-- R109: CBCENC while the sink accepts every write, and its errors before the first block. How the sink's answers stand
in State (`answerAt`) and the counter `sinkCount` are this model's choice (log entry 7), the one list of outputs too
(log entry 6). -/
def Obligations.StreamEncryptCommand : Prop :=
  ∀ (s : State) (data : List Byte),
    let blocks := plaintextBlocks data
    let chain := cbcChain s.rk s.cv blocks
    (s.cfg.chainingEn = false → runPacket (0x71 :: data) s = .next (failed s .illegalCommand)) ∧
    (s.cfg.chainingEn = true → decode s.cfg (0x71 :: data) = .ok (.cbcenc data)) ∧
    (s.cfg.chainingEn = true → s.kv = false → exec (.cbcenc data) s = .next (failed s .noKey)) ∧
    (s.cfg.chainingEn = true → s.kv = true → s.cvv = false → exec (.cbcenc data) s = .next (failed s .noIv)) ∧
    (s.cfg.chainingEn = true → s.kv = true → s.cvv = true →
      (∀ j < data.length / 16 + 1, s.answerAt (s.sinkCount + j) = .accept) →
      ∃ last, chain.getLast? = some last ∧ chain.length = data.length / 16 + 1 ∧
        delivered (acceptedOut s.cfg s.rk s.cv blocks) = chain ∧
        exec (.cbcenc data) s = .next { s with
          st := fill last, rnd := 0, cv := last, sinkCount := s.sinkCount + (data.length / 16 + 1),
          out := s.out ++ acceptedOut s.cfg s.rk s.cv blocks ++ [.response [0x00]] })

/-- R117: CBCENC when the sink rejects write `j`. How the sink's answers stand in State (`answerAt`) and the counter
`sinkCount` are this model's choice (log entry 7), and so are the one list of outputs (log entry 6) and the rejected
block standing in it with its answer (log entry 20). -/
def Obligations.SinkFailureLeaves : Prop :=
  ∀ (s : State) (data : List Byte) (j : Nat),
    let blocks := plaintextBlocks data
    let chain := cbcChain s.rk s.cv blocks
    let cv := if j = 0 then s.cv else chain.getD (j - 1) Block.zero
    let rejected := chain.getD j Block.zero
    s.cfg.chainingEn = true → s.kv = true → s.cvv = true → j < data.length / 16 + 1 →
      (∀ m < j, s.answerAt (s.sinkCount + m) = .accept) → s.answerAt (s.sinkCount + j) = .reject →
      delivered (acceptedOut s.cfg s.rk s.cv (blocks.take j)) = chain.take j ∧
        exec (.cbcenc data) s = .next { s with
          st := fill rejected, rnd := 0, cv := cv, err := s.err ||| 0x04, sinkCount := s.sinkCount + j + 1,
          out := s.out ++ acceptedOut s.cfg s.rk s.cv (blocks.take j) ++
            traceOut s.cfg (blockXor cv (blocks.getD j Block.zero)) s.rk ++
            [.sinkWrite rejected .reject, .response [0x03]] }

/-! ### System -/

/-- R110: STAT answers the two bytes and writes nothing. -/
def Obligations.StatusCommand : Prop :=
  OnlyLength 0x01 0 ∧ ∀ s : State, decode s.cfg [0x01] = .ok .stat ∧
    exec .stat s = .next (answered s [BitVec.ofNat 8 (s.kv.toNat + 2 * (s.cvv && s.cfg.chainingEn).toNat), s.err])
end

