-- ==== Sys2Proof/Laws/Layout.lean ====
section
/-! SUPPORT. The containers by index: what blockOf, byteOf, Fill and Drain do (R22, R83). -/

namespace Sys2Proof.Machine

@[simp] theorem byteOf_blockOf (f : Fin 4 → Fin 4 → Byte) (r c : Fin 4) : byteOf (blockOf f) r c = f r c := by
  fin_cases r <;> fin_cases c <;> rfl

/-- Two Blocks with the same bytes are equal. -/
theorem block_ext {a b : Block} (h : ∀ r c, byteOf a r c = byteOf b r c) : a = b := by
  have h' : blockOf (byteOf a) = blockOf (byteOf b) := congrArg blockOf (funext fun r => funext fun c => h r c)
  exact h'

@[simp] theorem byteOf_fill (b : Block) (r c : Fin 4) : byteOf (fill b) r c = byteOf b c r := by simp [fill]

@[simp] theorem byteOf_drain (b : Block) (r c : Fin 4) : byteOf (drain b) r c = byteOf b c r := by simp [drain]

@[simp] theorem drain_fill (b : Block) : drain (fill b) = b := rfl

@[simp] theorem fill_drain (b : Block) : fill (drain b) = b := rfl

@[simp] theorem word_bytes_length (w : Word) : w.bytes.length = 4 := rfl

@[simp] theorem block_bytes_length (b : Block) : b.bytes.length = 16 := rfl

@[simp] theorem schedule_bytes_length (k : Schedule) : k.bytes.length = 176 := by
  simp [Schedule.bytes]

/-- The index operand is the byte's number when it is in the domain. -/
theorem indexOperand_some {n : Nat} {i : Byte} (h : i.toNat < n) : indexOperand n i = some ⟨i.toNat, h⟩ := by
  simp [indexOperand, h]

/-- Outside the domain there is no index. -/
theorem indexOperand_none {n : Nat} {i : Byte} (h : n ≤ i.toNat) : indexOperand n i = none := by
  simp [indexOperand, Nat.not_lt.mpr h]

end Sys2Proof.Machine
end

