-- ==== Sys2Proof/Laws/State.lean ====
section
/-! SUPPORT. One lemma per field of State for each of the named updates of Machine/Ops.lean, so that no later proof
unfolds a record update. -/

namespace Sys2Proof.Machine

@[simp] theorem respond_rk (s : State) (l : List Byte) : (s.respond l).rk = s.rk := rfl
@[simp] theorem respond_kv (s : State) (l : List Byte) : (s.respond l).kv = s.kv := rfl
@[simp] theorem respond_st (s : State) (l : List Byte) : (s.respond l).st = s.st := rfl
@[simp] theorem respond_rnd (s : State) (l : List Byte) : (s.respond l).rnd = s.rnd := rfl
@[simp] theorem respond_cv (s : State) (l : List Byte) : (s.respond l).cv = s.cv := rfl
@[simp] theorem respond_cvv (s : State) (l : List Byte) : (s.respond l).cvv = s.cvv := rfl
@[simp] theorem respond_err (s : State) (l : List Byte) : (s.respond l).err = s.err := rfl
@[simp] theorem respond_cfg (s : State) (l : List Byte) : (s.respond l).cfg = s.cfg := rfl
@[simp] theorem respond_cmdIn (s : State) (l : List Byte) : (s.respond l).cmdIn = s.cmdIn := rfl
@[simp] theorem respond_out (s : State) (l : List Byte) : (s.respond l).out = s.out ++ [.response (0x00 :: l)] := rfl
@[simp] theorem respond_sinkAnswers (s : State) (l : List Byte) : (s.respond l).sinkAnswers = s.sinkAnswers := rfl
@[simp] theorem respond_sinkCount (s : State) (l : List Byte) : (s.respond l).sinkCount = s.sinkCount := rfl

@[simp] theorem raise_rk (s : State) (e : Err) : (s.raise e).rk = s.rk := rfl
@[simp] theorem raise_kv (s : State) (e : Err) : (s.raise e).kv = s.kv := rfl
@[simp] theorem raise_st (s : State) (e : Err) : (s.raise e).st = s.st := rfl
@[simp] theorem raise_rnd (s : State) (e : Err) : (s.raise e).rnd = s.rnd := rfl
@[simp] theorem raise_cv (s : State) (e : Err) : (s.raise e).cv = s.cv := rfl
@[simp] theorem raise_cvv (s : State) (e : Err) : (s.raise e).cvv = s.cvv := rfl
@[simp] theorem raise_err (s : State) (e : Err) : (s.raise e).err = stickyErr s.err e := rfl
@[simp] theorem raise_cfg (s : State) (e : Err) : (s.raise e).cfg = s.cfg := rfl
@[simp] theorem raise_cmdIn (s : State) (e : Err) : (s.raise e).cmdIn = s.cmdIn := rfl
@[simp] theorem raise_out (s : State) (e : Err) : (s.raise e).out = s.out ++ [.response [errCode e]] := rfl
@[simp] theorem raise_sinkAnswers (s : State) (e : Err) : (s.raise e).sinkAnswers = s.sinkAnswers := rfl
@[simp] theorem raise_sinkCount (s : State) (e : Err) : (s.raise e).sinkCount = s.sinkCount := rfl

@[simp] theorem loadKeys_rk (s : State) (k : Schedule) : (s.loadKeys k).rk = k := rfl
@[simp] theorem loadKeys_kv (s : State) (k : Schedule) : (s.loadKeys k).kv = true := rfl
@[simp] theorem loadKeys_st (s : State) (k : Schedule) : (s.loadKeys k).st = s.st := rfl
@[simp] theorem loadKeys_rnd (s : State) (k : Schedule) : (s.loadKeys k).rnd = s.rnd := rfl
@[simp] theorem loadKeys_cv (s : State) (k : Schedule) : (s.loadKeys k).cv = s.cv := rfl
@[simp] theorem loadKeys_cvv (s : State) (k : Schedule) : (s.loadKeys k).cvv = s.cvv := rfl
@[simp] theorem loadKeys_err (s : State) (k : Schedule) : (s.loadKeys k).err = s.err := rfl
@[simp] theorem loadKeys_cfg (s : State) (k : Schedule) : (s.loadKeys k).cfg = s.cfg := rfl
@[simp] theorem loadKeys_cmdIn (s : State) (k : Schedule) : (s.loadKeys k).cmdIn = s.cmdIn := rfl
@[simp] theorem loadKeys_out (s : State) (k : Schedule) : (s.loadKeys k).out = s.out := rfl
@[simp] theorem loadKeys_sinkAnswers (s : State) (k : Schedule) : (s.loadKeys k).sinkAnswers = s.sinkAnswers := rfl
@[simp] theorem loadKeys_sinkCount (s : State) (k : Schedule) : (s.loadKeys k).sinkCount = s.sinkCount := rfl

@[simp] theorem setSt_rk (s : State) (b : Block) : (s.setSt b).rk = s.rk := rfl
@[simp] theorem setSt_kv (s : State) (b : Block) : (s.setSt b).kv = s.kv := rfl
@[simp] theorem setSt_st (s : State) (b : Block) : (s.setSt b).st = b := rfl
@[simp] theorem setSt_rnd (s : State) (b : Block) : (s.setSt b).rnd = s.rnd := rfl
@[simp] theorem setSt_cv (s : State) (b : Block) : (s.setSt b).cv = s.cv := rfl
@[simp] theorem setSt_cvv (s : State) (b : Block) : (s.setSt b).cvv = s.cvv := rfl
@[simp] theorem setSt_err (s : State) (b : Block) : (s.setSt b).err = s.err := rfl
@[simp] theorem setSt_cfg (s : State) (b : Block) : (s.setSt b).cfg = s.cfg := rfl
@[simp] theorem setSt_cmdIn (s : State) (b : Block) : (s.setSt b).cmdIn = s.cmdIn := rfl
@[simp] theorem setSt_out (s : State) (b : Block) : (s.setSt b).out = s.out := rfl
@[simp] theorem setSt_sinkAnswers (s : State) (b : Block) : (s.setSt b).sinkAnswers = s.sinkAnswers := rfl
@[simp] theorem setSt_sinkCount (s : State) (b : Block) : (s.setSt b).sinkCount = s.sinkCount := rfl

@[simp] theorem setRnd_rk (s : State) (r : BitVec 4) : (s.setRnd r).rk = s.rk := rfl
@[simp] theorem setRnd_kv (s : State) (r : BitVec 4) : (s.setRnd r).kv = s.kv := rfl
@[simp] theorem setRnd_st (s : State) (r : BitVec 4) : (s.setRnd r).st = s.st := rfl
@[simp] theorem setRnd_rnd (s : State) (r : BitVec 4) : (s.setRnd r).rnd = r := rfl
@[simp] theorem setRnd_cv (s : State) (r : BitVec 4) : (s.setRnd r).cv = s.cv := rfl
@[simp] theorem setRnd_cvv (s : State) (r : BitVec 4) : (s.setRnd r).cvv = s.cvv := rfl
@[simp] theorem setRnd_err (s : State) (r : BitVec 4) : (s.setRnd r).err = s.err := rfl
@[simp] theorem setRnd_cfg (s : State) (r : BitVec 4) : (s.setRnd r).cfg = s.cfg := rfl
@[simp] theorem setRnd_cmdIn (s : State) (r : BitVec 4) : (s.setRnd r).cmdIn = s.cmdIn := rfl
@[simp] theorem setRnd_out (s : State) (r : BitVec 4) : (s.setRnd r).out = s.out := rfl
@[simp] theorem setRnd_sinkAnswers (s : State) (r : BitVec 4) : (s.setRnd r).sinkAnswers = s.sinkAnswers := rfl
@[simp] theorem setRnd_sinkCount (s : State) (r : BitVec 4) : (s.setRnd r).sinkCount = s.sinkCount := rfl

@[simp] theorem loadIv_rk (s : State) (iv : Block) : (s.loadIv iv).rk = s.rk := rfl
@[simp] theorem loadIv_kv (s : State) (iv : Block) : (s.loadIv iv).kv = s.kv := rfl
@[simp] theorem loadIv_st (s : State) (iv : Block) : (s.loadIv iv).st = s.st := rfl
@[simp] theorem loadIv_rnd (s : State) (iv : Block) : (s.loadIv iv).rnd = s.rnd := rfl
@[simp] theorem loadIv_cv (s : State) (iv : Block) : (s.loadIv iv).cv = iv := rfl
@[simp] theorem loadIv_cvv (s : State) (iv : Block) : (s.loadIv iv).cvv = true := rfl
@[simp] theorem loadIv_err (s : State) (iv : Block) : (s.loadIv iv).err = s.err := rfl
@[simp] theorem loadIv_cfg (s : State) (iv : Block) : (s.loadIv iv).cfg = s.cfg := rfl
@[simp] theorem loadIv_cmdIn (s : State) (iv : Block) : (s.loadIv iv).cmdIn = s.cmdIn := rfl
@[simp] theorem loadIv_out (s : State) (iv : Block) : (s.loadIv iv).out = s.out := rfl
@[simp] theorem loadIv_sinkAnswers (s : State) (iv : Block) : (s.loadIv iv).sinkAnswers = s.sinkAnswers := rfl
@[simp] theorem loadIv_sinkCount (s : State) (iv : Block) : (s.loadIv iv).sinkCount = s.sinkCount := rfl

@[simp] theorem setCv_rk (s : State) (c : Block) : (s.setCv c).rk = s.rk := rfl
@[simp] theorem setCv_kv (s : State) (c : Block) : (s.setCv c).kv = s.kv := rfl
@[simp] theorem setCv_st (s : State) (c : Block) : (s.setCv c).st = s.st := rfl
@[simp] theorem setCv_rnd (s : State) (c : Block) : (s.setCv c).rnd = s.rnd := rfl
@[simp] theorem setCv_cv (s : State) (c : Block) : (s.setCv c).cv = c := rfl
@[simp] theorem setCv_cvv (s : State) (c : Block) : (s.setCv c).cvv = s.cvv := rfl
@[simp] theorem setCv_err (s : State) (c : Block) : (s.setCv c).err = s.err := rfl
@[simp] theorem setCv_cfg (s : State) (c : Block) : (s.setCv c).cfg = s.cfg := rfl
@[simp] theorem setCv_cmdIn (s : State) (c : Block) : (s.setCv c).cmdIn = s.cmdIn := rfl
@[simp] theorem setCv_out (s : State) (c : Block) : (s.setCv c).out = s.out := rfl
@[simp] theorem setCv_sinkAnswers (s : State) (c : Block) : (s.setCv c).sinkAnswers = s.sinkAnswers := rfl
@[simp] theorem setCv_sinkCount (s : State) (c : Block) : (s.setCv c).sinkCount = s.sinkCount := rfl

@[simp] theorem sinkWrite_rk (s : State) (b : Block) : (s.sinkWrite b).rk = s.rk := rfl
@[simp] theorem sinkWrite_kv (s : State) (b : Block) : (s.sinkWrite b).kv = s.kv := rfl
@[simp] theorem sinkWrite_st (s : State) (b : Block) : (s.sinkWrite b).st = s.st := rfl
@[simp] theorem sinkWrite_rnd (s : State) (b : Block) : (s.sinkWrite b).rnd = s.rnd := rfl
@[simp] theorem sinkWrite_cv (s : State) (b : Block) : (s.sinkWrite b).cv = s.cv := rfl
@[simp] theorem sinkWrite_cvv (s : State) (b : Block) : (s.sinkWrite b).cvv = s.cvv := rfl
@[simp] theorem sinkWrite_err (s : State) (b : Block) : (s.sinkWrite b).err = s.err := rfl
@[simp] theorem sinkWrite_cfg (s : State) (b : Block) : (s.sinkWrite b).cfg = s.cfg := rfl
@[simp] theorem sinkWrite_cmdIn (s : State) (b : Block) : (s.sinkWrite b).cmdIn = s.cmdIn := rfl
@[simp] theorem sinkWrite_out (s : State) (b : Block) : (s.sinkWrite b).out = s.out ++ [.sinkWrite b s.nextAnswer] := rfl
@[simp] theorem sinkWrite_sinkAnswers (s : State) (b : Block) : (s.sinkWrite b).sinkAnswers = s.sinkAnswers := rfl
@[simp] theorem sinkWrite_sinkCount (s : State) (b : Block) : (s.sinkWrite b).sinkCount = s.sinkCount + 1 := rfl

@[simp] theorem resetRegisters_rk (s : State) : (s.resetRegisters).rk = Schedule.zero := rfl
@[simp] theorem resetRegisters_kv (s : State) : (s.resetRegisters).kv = false := rfl
@[simp] theorem resetRegisters_st (s : State) : (s.resetRegisters).st = Block.zero := rfl
@[simp] theorem resetRegisters_rnd (s : State) : (s.resetRegisters).rnd = 0 := rfl
@[simp] theorem resetRegisters_cv (s : State) : (s.resetRegisters).cv = Block.zero := rfl
@[simp] theorem resetRegisters_cvv (s : State) : (s.resetRegisters).cvv = false := rfl
@[simp] theorem resetRegisters_err (s : State) : (s.resetRegisters).err = 0x00 := rfl
@[simp] theorem resetRegisters_cfg (s : State) : (s.resetRegisters).cfg = s.cfg := rfl
@[simp] theorem resetRegisters_cmdIn (s : State) : (s.resetRegisters).cmdIn = s.cmdIn := rfl
@[simp] theorem resetRegisters_out (s : State) : (s.resetRegisters).out = s.out := rfl
@[simp] theorem resetRegisters_sinkAnswers (s : State) : (s.resetRegisters).sinkAnswers = s.sinkAnswers := rfl
@[simp] theorem resetRegisters_sinkCount (s : State) : (s.resetRegisters).sinkCount = s.sinkCount := rfl

@[simp] theorem deliver_rk (s : State) (p : List Byte) : (s.deliver p).rk = s.rk := rfl
@[simp] theorem deliver_kv (s : State) (p : List Byte) : (s.deliver p).kv = s.kv := rfl
@[simp] theorem deliver_st (s : State) (p : List Byte) : (s.deliver p).st = s.st := rfl
@[simp] theorem deliver_rnd (s : State) (p : List Byte) : (s.deliver p).rnd = s.rnd := rfl
@[simp] theorem deliver_cv (s : State) (p : List Byte) : (s.deliver p).cv = s.cv := rfl
@[simp] theorem deliver_cvv (s : State) (p : List Byte) : (s.deliver p).cvv = s.cvv := rfl
@[simp] theorem deliver_err (s : State) (p : List Byte) : (s.deliver p).err = s.err := rfl
@[simp] theorem deliver_cfg (s : State) (p : List Byte) : (s.deliver p).cfg = s.cfg := rfl
@[simp] theorem deliver_cmdIn (s : State) (p : List Byte) : (s.deliver p).cmdIn = .packet p :: s.cmdIn := rfl
@[simp] theorem deliver_out (s : State) (p : List Byte) : (s.deliver p).out = s.out := rfl
@[simp] theorem deliver_sinkAnswers (s : State) (p : List Byte) : (s.deliver p).sinkAnswers = s.sinkAnswers := rfl
@[simp] theorem deliver_sinkCount (s : State) (p : List Byte) : (s.deliver p).sinkCount = s.sinkCount := rfl

@[simp] theorem emitTrace_rk (s : State) (g : Stage) : (s.emitTrace g).rk = s.rk := by
  unfold State.emitTrace; split <;> rfl

@[simp] theorem emitTrace_kv (s : State) (g : Stage) : (s.emitTrace g).kv = s.kv := by
  unfold State.emitTrace; split <;> rfl

@[simp] theorem emitTrace_st (s : State) (g : Stage) : (s.emitTrace g).st = s.st := by
  unfold State.emitTrace; split <;> rfl

@[simp] theorem emitTrace_rnd (s : State) (g : Stage) : (s.emitTrace g).rnd = s.rnd := by
  unfold State.emitTrace; split <;> rfl

@[simp] theorem emitTrace_cv (s : State) (g : Stage) : (s.emitTrace g).cv = s.cv := by
  unfold State.emitTrace; split <;> rfl

@[simp] theorem emitTrace_cvv (s : State) (g : Stage) : (s.emitTrace g).cvv = s.cvv := by
  unfold State.emitTrace; split <;> rfl

@[simp] theorem emitTrace_err (s : State) (g : Stage) : (s.emitTrace g).err = s.err := by
  unfold State.emitTrace; split <;> rfl

@[simp] theorem emitTrace_cfg (s : State) (g : Stage) : (s.emitTrace g).cfg = s.cfg := by
  unfold State.emitTrace; split <;> rfl

@[simp] theorem emitTrace_cmdIn (s : State) (g : Stage) : (s.emitTrace g).cmdIn = s.cmdIn := by
  unfold State.emitTrace; split <;> rfl

@[simp] theorem emitTrace_out (s : State) (g : Stage) :
    (s.emitTrace g).out = s.out ++ (if s.cfg.traceEn then [.trace ⟨s.rnd, g, s.st⟩] else []) := by
  unfold State.emitTrace; split <;> simp

@[simp] theorem emitTrace_sinkAnswers (s : State) (g : Stage) : (s.emitTrace g).sinkAnswers = s.sinkAnswers := by
  unfold State.emitTrace; split <;> rfl

@[simp] theorem emitTrace_sinkCount (s : State) (g : Stage) : (s.emitTrace g).sinkCount = s.sinkCount := by
  unfold State.emitTrace; split <;> rfl

/-- Two states are equal when all their fields are. -/
theorem state_ext {s t : State} (rk : s.rk = t.rk) (kv : s.kv = t.kv) (st : s.st = t.st) (rnd : s.rnd = t.rnd)
    (cv : s.cv = t.cv) (cvv : s.cvv = t.cvv) (err : s.err = t.err) (cfg : s.cfg = t.cfg) (cmdIn : s.cmdIn = t.cmdIn)
    (out : s.out = t.out) (sinkAnswers : s.sinkAnswers = t.sinkAnswers) (sinkCount : s.sinkCount = t.sinkCount) :
    s = t := by
  cases s; cases t; simp_all

end Sys2Proof.Machine
end

