-- ==== Sys2Proof/Laws/Ops.lean ====
section
/-! SUPPORT. One lemma per shared operation that says everything it can do: raising an error, running one encryption
on the registers, one turn of the chaining loop, and what a reset leaves of the outputs. -/

namespace Sys2Proof.Machine

open Sys2Proof.Safety

/-! ### Errors and responses -/

/-- The codes and masks of Machine/Flags.lean are the rows of R112. -/
theorem stickyErr_eq (err : BitVec 8) (e : Err) : stickyErr err e = err ||| (errRow e).2 := by cases e <;> rfl

theorem errCode_eq (e : Err) : errCode e = (errRow e).1 := by cases e <;> rfl

/-- Raising an error is the spec's failed command (R116). -/
theorem raise_eq_failed (s : State) (e : Err) : s.raise e = failed s e := by
  simp [State.raise, failed, stickyErr_eq, errCode_eq]

/-- Responding is the spec's answered command (R33). -/
theorem respond_eq_answered (s : State) (l : List Byte) : s.respond l = answered s l := rfl

/-! ### One encryption on the registers (R97) -/

/-- The state after a stage: `ST` and the outputs change, nothing else. -/
theorem stageStep_eq (g : Stage) (f : Block → Block) (s : State) :
    stageStep g f s =
      { s with st := f s.st, out := s.out ++ (if s.cfg.traceEn then [.trace ⟨s.rnd, g, f s.st⟩] else []) } := by
  cases h : s.cfg.traceEn <;> apply state_ext <;> simp [stageStep, h]

/-- One full round: what roundTrace says, `RND` at the round's number. -/
theorem roundStep_eq (s : State) (r : Fin 11) :
    roundStep s r =
      { s with
        rnd := BitVec.ofNat 4 r.val, st := (roundTrace s.rk r s.st).2,
        out := s.out ++ (if s.cfg.traceEn then (roundTrace s.rk r s.st).1.map .trace else []) } := by
  unfold roundStep arkStep
  simp only [stageStep_eq]
  cases h : s.cfg.traceEn <;> apply state_ext <;> simp [roundTrace, h]

/-- The rounds of a list. -/
theorem roundSteps_eq (rs : List (Fin 11)) (s : State) :
    ∃ n, rs.foldl roundStep s =
      { s with
        rnd := n, st := (roundsTrace s.rk rs s.st).2,
        out := s.out ++ (if s.cfg.traceEn then (roundsTrace s.rk rs s.st).1.map .trace else []) } := by
  induction rs generalizing s with
  | nil => exact ⟨s.rnd, by apply state_ext <;> simp [roundsTrace]⟩
  | cons r rest ih =>
    obtain ⟨n, hn⟩ := ih (roundStep s r)
    refine ⟨n, ?_⟩
    rw [List.foldl_cons, hn, roundStep_eq]
    cases h : s.cfg.traceEn <;> apply state_ext <;> simp [roundsTrace]

/-- The pure rounds and the traced rounds end in the same state. -/
theorem roundsTrace_state (k : Schedule) (rs : List (Fin 11)) (st : Block) :
    (roundsTrace k rs st).2 = rs.foldl (roundFn k) st := by
  induction rs generalizing st with
  | nil => rfl
  | cons r rest ih => simp [roundsTrace, ih, roundTrace, roundFn]

/-- The sequence of R97 from any state: `ST` ends as the image of the ciphertext, `RND` at 0, the trace is that of one
encryption, and nothing else changes. -/
theorem runEncrypt_eq (pt : Block) (s : State) :
    runEncrypt pt s =
      { s with st := fill (encrypt pt s.rk), rnd := 0, out := s.out ++ traceOut s.cfg pt s.rk } := by
  obtain ⟨n, hn⟩ := roundSteps_eq fullRounds (arkStep 0 ((s.setRnd 0).setSt (fill pt)))
  unfold runEncrypt
  rw [hn]
  unfold finalStep arkStep
  simp only [stageStep_eq]
  cases h : s.cfg.traceEn <;> apply state_ext <;>
    simp [h, traceOut, encryptTrace, encrypt, encryptState, roundsTrace_state, fullRounds]

@[simp] theorem runEncrypt_rk (pt : Block) (s : State) : (runEncrypt pt s).rk = s.rk := by
  rw [runEncrypt_eq]

@[simp] theorem runEncrypt_kv (pt : Block) (s : State) : (runEncrypt pt s).kv = s.kv := by
  rw [runEncrypt_eq]

@[simp] theorem runEncrypt_cv (pt : Block) (s : State) : (runEncrypt pt s).cv = s.cv := by
  rw [runEncrypt_eq]

@[simp] theorem runEncrypt_cvv (pt : Block) (s : State) : (runEncrypt pt s).cvv = s.cvv := by
  rw [runEncrypt_eq]

@[simp] theorem runEncrypt_err (pt : Block) (s : State) : (runEncrypt pt s).err = s.err := by
  rw [runEncrypt_eq]

@[simp] theorem runEncrypt_cfg (pt : Block) (s : State) : (runEncrypt pt s).cfg = s.cfg := by
  rw [runEncrypt_eq]

@[simp] theorem runEncrypt_cmdIn (pt : Block) (s : State) : (runEncrypt pt s).cmdIn = s.cmdIn := by
  rw [runEncrypt_eq]

@[simp] theorem runEncrypt_sinkAnswers (pt : Block) (s : State) : (runEncrypt pt s).sinkAnswers = s.sinkAnswers := by
  rw [runEncrypt_eq]

@[simp] theorem runEncrypt_sinkCount (pt : Block) (s : State) : (runEncrypt pt s).sinkCount = s.sinkCount := by
  rw [runEncrypt_eq]

@[simp] theorem runEncrypt_st (pt : Block) (s : State) : (runEncrypt pt s).st = fill (encrypt pt s.rk) := by
  rw [runEncrypt_eq]

@[simp] theorem runEncrypt_rnd (pt : Block) (s : State) : (runEncrypt pt s).rnd = 0 := by rw [runEncrypt_eq]

@[simp] theorem runEncrypt_out (pt : Block) (s : State) :
    (runEncrypt pt s).out = s.out ++ traceOut s.cfg pt s.rk := by
  rw [runEncrypt_eq]

/-! ### The chaining loop (R109) -/

/-- The next answer is decided by the environment's answers and the number of the write. -/
theorem nextAnswer_congr {s t : State} (ha : s.sinkAnswers = t.sinkAnswers) (hc : s.sinkCount = t.sinkCount) :
    s.nextAnswer = t.nextAnswer := by
  simp [State.nextAnswer, State.answerAt, ha, hc]

@[simp] theorem runEncrypt_nextAnswer (pt : Block) (s : State) : (runEncrypt pt s).nextAnswer = s.nextAnswer :=
  nextAnswer_congr (runEncrypt_sinkAnswers pt s) (runEncrypt_sinkCount pt s)

/-- One turn of the loop, when the sink accepts the write. -/
theorem cbcLoop_accept {p : Block} {rest : List Block} {s : State} (h : s.nextAnswer = .accept) :
    cbcLoop (p :: rest) s =
      cbcLoop rest
        { s with
          st := fill (encrypt (blockXor s.cv p) s.rk), rnd := 0, cv := encrypt (blockXor s.cv p) s.rk,
          sinkCount := s.sinkCount + 1,
          out := s.out ++ traceOut s.cfg (blockXor s.cv p) s.rk ++
            [.sinkWrite (encrypt (blockXor s.cv p) s.rk) .accept] } := by
  have he : cbcLoop (p :: rest) s =
      cbcLoop rest (((runEncrypt (blockXor s.cv p) s).sinkWrite (drain (runEncrypt (blockXor s.cv p) s).st)).setCv
        (drain (runEncrypt (blockXor s.cv p) s).st)) := by
    rw [cbcLoop, if_pos (by simp [h])]
  rw [he]
  refine congrArg (cbcLoop rest) ?_
  apply state_ext <;> simp [h]

/-- One turn of the loop, when the sink rejects the write: the command ends with SinkFailure, `CV` unchanged (R117). -/
theorem cbcLoop_reject {p : Block} {rest : List Block} {s : State} (h : s.nextAnswer = .reject) :
    cbcLoop (p :: rest) s =
      { s with
        st := fill (encrypt (blockXor s.cv p) s.rk), rnd := 0, err := s.err ||| 0x04, sinkCount := s.sinkCount + 1,
        out := s.out ++ traceOut s.cfg (blockXor s.cv p) s.rk ++
          [.sinkWrite (encrypt (blockXor s.cv p) s.rk) .reject, .response [0x03]] } := by
  have he : cbcLoop (p :: rest) s =
      ((runEncrypt (blockXor s.cv p) s).sinkWrite (drain (runEncrypt (blockXor s.cv p) s).st)).raise .sinkFailure := by
    rw [cbcLoop, if_neg (by simp [h])]
  rw [he]
  apply state_ext <;> simp [h, stickyErr_eq, errRow, errCode]

/-! ### Reset in the middle of a command (R123) -/

/-- What has left before the reset is a first part of what the command sends. -/
theorem outputsBeforeReset_isPrefix (writes traces : Nat) (l : List PortOut) :
    outputsBeforeReset writes traces l <+: l := by
  fun_induction outputsBeforeReset writes traces l <;> simp_all

/-- No response is among it. -/
theorem outputsBeforeReset_noResponse (writes traces : Nat) (l : List PortOut) :
    ∀ o ∈ outputsBeforeReset writes traces l, isResponse o = false := by
  fun_induction outputsBeforeReset writes traces l <;> simp_all [isResponse]

@[simp] theorem countWrites_append (l m : List PortOut) : countWrites (l ++ m) = countWrites l + countWrites m := by
  fun_induction countWrites l <;> simp_all [countWrites]; omega

/-- Of a command's outputs, which end with its response, the first `writes` sink writes have left. -/
theorem countWrites_outputsBeforeReset (writes traces : Nat) (before : List PortOut) (r : List Byte)
    (h : ∀ o ∈ before, isResponse o = false) :
    countWrites (outputsBeforeReset writes traces (before ++ [.response r])) =
      min writes (countWrites (before ++ [.response r])) := by
  induction before generalizing writes traces with
  | nil => cases writes <;> cases traces <;> simp [outputsBeforeReset, countWrites]
  | cons o rest ih =>
    have hr : ∀ o ∈ rest, isResponse o = false := fun x hx => h x (List.mem_cons_of_mem _ hx)
    cases o with
    | response q => simpa [isResponse] using h _ List.mem_cons_self
    | sinkWrite b a => cases writes <;> cases traces <;> simp [outputsBeforeReset, countWrites, ih _ _ hr]
    | trace e => cases writes <;> cases traces <;> simp [outputsBeforeReset, countWrites, ih _ _ hr]

end Sys2Proof.Machine
end

