-- ==== Sys2Proof/Laws/Chaining.lean ====
section
/-! SUPPORT. What the chaining loop can do, over all plaintext blocks and all answers of the sink (R105, R109, R117). -/

namespace Sys2Proof.Machine

open Sys2Proof.Safety

/-- No trace output is a response. -/
theorem traceOut_noResponse (cfg : Config) (pt : Block) (k : Schedule) :
    ∀ o ∈ traceOut cfg pt k, isResponse o = false := by
  intro o ho
  unfold traceOut at ho
  split at ho
  · obtain ⟨e, -, rfl⟩ := List.mem_map.mp ho; rfl
  · simp at ho

/-- The loop writes `ST`, `RND`, `CV`, `ERR`, the outputs and the number of writes; every other field is kept. -/
theorem cbcLoop_keeps (ps : List Block) (s : State) :
    (cbcLoop ps s).rk = s.rk ∧ (cbcLoop ps s).kv = s.kv ∧ (cbcLoop ps s).cvv = s.cvv ∧ (cbcLoop ps s).cfg = s.cfg ∧
      (cbcLoop ps s).cmdIn = s.cmdIn ∧ (cbcLoop ps s).sinkAnswers = s.sinkAnswers := by
  induction ps generalizing s with
  | nil => simp [cbcLoop]
  | cons p rest ih =>
    cases h : s.nextAnswer with
    | accept => rw [cbcLoop_accept h]; simpa using ih _
    | reject => rw [cbcLoop_reject h]; simp

/-- The loop ends with one response: OK with `ERR` kept, or SINK_FAILURE with its bit set. -/
theorem cbcLoop_response (ps : List Block) (s : State) :
    ∃ before r, (cbcLoop ps s).out = s.out ++ before ++ [.response r] ∧ (∀ o ∈ before, isResponse o = false) ∧
      (r = [0x00] ∧ (cbcLoop ps s).err = s.err ∨ r = [0x03] ∧ (cbcLoop ps s).err = s.err ||| 0x04) := by
  induction ps generalizing s with
  | nil => exact ⟨[], [0x00], by simp [cbcLoop]⟩
  | cons p rest ih =>
    cases h : s.nextAnswer with
    | accept =>
      obtain ⟨b, r, ho, hb, he⟩ := ih
        { s with
          st := fill (encrypt (blockXor s.cv p) s.rk), rnd := 0, cv := encrypt (blockXor s.cv p) s.rk,
          sinkCount := s.sinkCount + 1,
          out := s.out ++ traceOut s.cfg (blockXor s.cv p) s.rk ++
            [.sinkWrite (encrypt (blockXor s.cv p) s.rk) .accept] }
      rw [cbcLoop_accept h]
      refine ⟨traceOut s.cfg (blockXor s.cv p) s.rk ++ [.sinkWrite (encrypt (blockXor s.cv p) s.rk) .accept] ++ b, r,
        ?_, ?_, he⟩
      · rw [ho]; simp
      · intro o ho'
        simp only [List.mem_append, List.mem_singleton] at ho'
        rcases ho' with (ht | rfl) | hb'
        · exact traceOut_noResponse _ _ _ o ht
        · rfl
        · exact hb o hb'
    | reject =>
      rw [cbcLoop_reject h]
      refine ⟨traceOut s.cfg (blockXor s.cv p) s.rk ++ [.sinkWrite (encrypt (blockXor s.cv p) s.rk) .reject], [0x03],
        by simp, ?_, Or.inr ⟨rfl, rfl⟩⟩
      intro o ho'
      simp only [List.mem_append, List.mem_singleton] at ho'
      rcases ho' with ht | rfl
      · exact traceOut_noResponse _ _ _ o ht
      · rfl

end Sys2Proof.Machine
end

