-- ==== Sys2Proof/Laws/Decode.lean ====
section
/-! SUPPORT. The fields of a payload: what the readers of Decode.lean give on the bytes the encoder writes, and that a
32-bit constant and its four bytes are the same thing (R20, R35). -/

namespace Sys2Proof

/-- The four bytes of the number a Word carries are the Word. -/
@[simp] theorem constWord_leConst (w : Word) : constWord (leConst w) = w := by
  cases w with
  | mk b0 b1 b2 b3 =>
    simp only [constWord, leConst, Word.mk.injEq]
    refine ⟨?_, ?_, ?_, ?_⟩ <;> apply BitVec.eq_of_toNat_eq <;>
      simp only [BitVec.toNat_setWidth, BitVec.toNat_ushiftRight, BitVec.toNat_ofNat, Nat.shiftRight_eq_div_pow] <;>
      omega

/-- The number the four bytes of a constant carry is the constant. -/
@[simp] theorem leConst_constWord (c : BitVec 32) : leConst (constWord c) = c := by
  apply BitVec.eq_of_toNat_eq
  simp only [constWord, leConst, BitVec.toNat_setWidth, BitVec.toNat_ushiftRight, BitVec.toNat_ofNat,
    Nat.shiftRight_eq_div_pow]
  omega

/-- A Word is read back from its own bytes, whatever follows. -/
@[simp] theorem wordAt_bytes (w : Word) (rest : List Byte) : wordAt (w.bytes ++ rest) 0 = w := rfl

/-- A Block is read back from its own bytes, whatever follows. -/
@[simp] theorem blockAt_bytes (b : Block) (rest : List Byte) : blockAt (b.bytes ++ rest) 0 = b := rfl

/-- The bytes of a Word read inside a payload are the four bytes there. -/
theorem wordAt_eq_take {p : List Byte} {off : Nat} (h : off + 4 ≤ p.length) :
    (wordAt p off).bytes = (p.drop off).take 4 := by
  apply List.ext_getElem
  · simp [Word.bytes]; omega
  · intro n h1 h2
    have hn : n < 4 := by simpa [Word.bytes] using h1
    interval_cases n <;>
      simp [wordAt, Word.bytes, byteAt, List.getD,
        List.getElem?_eq_getElem (show off + 1 < p.length by omega),
        List.getElem?_eq_getElem (show off + 2 < p.length by omega),
        List.getElem?_eq_getElem (show off + 3 < p.length by omega),
        List.getElem?_eq_getElem (show off < p.length by omega)]

/-- The bytes of a Block read inside a payload are the sixteen bytes there. -/
theorem blockAt_eq_take {p : List Byte} {off : Nat} (h : off + 16 ≤ p.length) :
    (blockAt p off).bytes = (p.drop off).take 16 := by
  have t : (p.drop off).take 16 =
      (p.drop off).take 4 ++ ((p.drop (off + 4)).take 4 ++ ((p.drop (off + 8)).take 4 ++ (p.drop (off + 12)).take 4)) := by
    rw [show 16 = 4 + (4 + (4 + 4)) from rfl, List.take_add, List.take_add, List.take_add]
    simp [List.drop_drop, Nat.add_assoc]
  rw [t, ← wordAt_eq_take (by omega), ← wordAt_eq_take (by omega), ← wordAt_eq_take (by omega),
    ← wordAt_eq_take (by omega)]
  simp [blockAt, Block.bytes]

end Sys2Proof
end

