-- ==== Sys2Proof/Laws/PerInstr.lean ====
section
/-! SUPPORT. The per-instruction family EncodeShape: the packet of a command is its opcode byte, then a payload of the
length its format fixes (R32, R35). -/

namespace Sys2Proof.Laws.EncodeShape

/-- The packet begins with the opcode, its payload has the format, and the opcode's row of the opcode map names that
format (R35, R36). -/
def Statement (i : Instr) : Prop :=
  (encode i).head? = some i.opcode ∧ i.format.accepts ((encode i).length - 1) = true ∧
    (opcodeRow i.opcode).map (fun row => row.1) = some i.format

theorem stat : Statement (.stat) := by
  simp [Statement, encode, Instr.opcode, Instr.payload, Instr.format, Format.accepts, Format.length?, opcodeRow]

theorem gfadd (a b : Byte) : Statement (.gfadd a b) := by
  simp [Statement, encode, Instr.opcode, Instr.payload, Instr.format, Format.accepts, Format.length?, opcodeRow]

theorem gfmul (a b : Byte) : Statement (.gfmul a b) := by
  simp [Statement, encode, Instr.opcode, Instr.payload, Instr.format, Format.accepts, Format.length?, opcodeRow]

theorem gfpow (a n : Byte) : Statement (.gfpow a n) := by
  simp [Statement, encode, Instr.opcode, Instr.payload, Instr.format, Format.accepts, Format.length?, opcodeRow]

theorem gfinv (a : Byte) : Statement (.gfinv a) := by
  simp [Statement, encode, Instr.opcode, Instr.payload, Instr.format, Format.accepts, Format.length?, opcodeRow]

theorem gfbit (a i : Byte) : Statement (.gfbit a i) := by
  simp [Statement, encode, Instr.opcode, Instr.payload, Instr.format, Format.accepts, Format.length?, opcodeRow]

theorem sboxf (c : Byte) : Statement (.sboxf c) := by
  simp [Statement, encode, Instr.opcode, Instr.payload, Instr.format, Format.accepts, Format.length?, opcodeRow]

theorem sboxi (s : Byte) : Statement (.sboxi s) := by
  simp [Statement, encode, Instr.opcode, Instr.payload, Instr.format, Format.accepts, Format.length?, opcodeRow]

theorem rotw (w : Word) : Statement (.rotw w) := by
  simp [Statement, encode, Instr.opcode, Instr.payload, Instr.format, Format.accepts, Format.length?, opcodeRow]

theorem subw (w : Word) : Statement (.subw w) := by
  simp [Statement, encode, Instr.opcode, Instr.payload, Instr.format, Format.accepts, Format.length?, opcodeRow]

theorem xorw (w1 w2 : Word) : Statement (.xorw w1 w2) := by
  simp [Statement, encode, Instr.opcode, Instr.payload, Instr.format, Format.accepts, Format.length?, opcodeRow]

theorem xorwc (w : Word) (c : BitVec 32) : Statement (.xorwc w c) := by
  simp [Statement, encode, Instr.opcode, Instr.payload, Instr.format, Format.accepts, Format.length?, opcodeRow]

theorem wbyte (w : Word) (i : Byte) : Statement (.wbyte w i) := by
  simp [Statement, encode, Instr.opcode, Instr.payload, Instr.format, Format.accepts, Format.length?, opcodeRow]

theorem bword (blk : Block) (i : Byte) : Statement (.bword blk i) := by
  simp [Statement, encode, Instr.opcode, Instr.payload, Instr.format, Format.accepts, Format.length?, opcodeRow]

theorem bxor (blk buf : Block) : Statement (.bxor blk buf) := by
  simp [Statement, encode, Instr.opcode, Instr.payload, Instr.format, Format.accepts, Format.length?, opcodeRow]

theorem keyexp (key : Block) : Statement (.keyexp key) := by
  simp [Statement, encode, Instr.opcode, Instr.payload, Instr.format, Format.accepts, Format.length?, opcodeRow]

theorem rkld (sched : Schedule) : Statement (.rkld sched) := by
  simp [Statement, encode, Instr.opcode, Instr.payload, Instr.format, Format.accepts, Format.length?, opcodeRow]

theorem rkrd (r : Byte) : Statement (.rkrd r) := by
  simp [Statement, encode, Instr.opcode, Instr.payload, Instr.format, Format.accepts, Format.length?, opcodeRow]

theorem stld (blk : Block) : Statement (.stld blk) := by
  simp [Statement, encode, Instr.opcode, Instr.payload, Instr.format, Format.accepts, Format.length?, opcodeRow]

theorem strd : Statement (.strd) := by
  simp [Statement, encode, Instr.opcode, Instr.payload, Instr.format, Format.accepts, Format.length?, opcodeRow]

theorem ark (r : Byte) : Statement (.ark r) := by
  simp [Statement, encode, Instr.opcode, Instr.payload, Instr.format, Format.accepts, Format.length?, opcodeRow]

theorem subb : Statement (.subb) := by
  simp [Statement, encode, Instr.opcode, Instr.payload, Instr.format, Format.accepts, Format.length?, opcodeRow]

theorem shrow : Statement (.shrow) := by
  simp [Statement, encode, Instr.opcode, Instr.payload, Instr.format, Format.accepts, Format.length?, opcodeRow]

theorem mixc : Statement (.mixc) := by
  simp [Statement, encode, Instr.opcode, Instr.payload, Instr.format, Format.accepts, Format.length?, opcodeRow]

theorem enc (blk : Block) : Statement (.enc blk) := by
  simp [Statement, encode, Instr.opcode, Instr.payload, Instr.format, Format.accepts, Format.length?, opcodeRow]

theorem cbciv (iv : Block) : Statement (.cbciv iv) := by
  simp [Statement, encode, Instr.opcode, Instr.payload, Instr.format, Format.accepts, Format.length?, opcodeRow]

theorem cbcenc (data : List Byte) : Statement (.cbcenc data) := by
  simp [Statement, encode, Instr.opcode, Instr.payload, Instr.format, Format.accepts, Format.length?, opcodeRow]

end Sys2Proof.Laws.EncodeShape
end

