-- ==== Sys2Proof/Tests/Slice0.lean ====
section
/-! SUPPORT. Tests of the model on the spec's own examples (95_test_vectors.md, 96_test_vectors_pipeline.md,
97_programs.md and the examples in the command rules), and a witness for every statement that has hypotheses. -/

namespace Sys2Proof.Tests

open Sys2Proof.Machine Sys2Proof.Safety

-- The kernel checks below run one after the other, so that they do not all hold memory at once.
set_option Elab.async false

/-! ### Helpers -/

/-- The Word whose bytes are the eight hexadecimal digits of a number, in index order (R5 notation). -/
def hexWord (n : Nat) : Word :=
  ⟨BitVec.ofNat 8 (n >>> 24), BitVec.ofNat 8 (n >>> 16), BitVec.ofNat 8 (n >>> 8), BitVec.ofNat 8 n⟩

/-- The Block whose bytes are the 32 hexadecimal digits of a number, in index order. -/
def hexBlock (n : Nat) : Block := ⟨hexWord (n >>> 96), hexWord (n >>> 64), hexWord (n >>> 32), hexWord n⟩

/-- The state a step ends in. -/
def nextOf : Host.Outcome State Fault Refusal → Option State
  | .next t => some t
  | .fault _ => none
  | .refused _ => none

/-- The last response packet on the response port after a step. -/
def response (x : Host.Outcome State Fault Refusal) : Option (List Byte) :=
  (nextOf x).bind fun t => (responses t.out).getLast?

/-- One step on a packet. -/
def sent (s : State) (p : List Byte) : Host.Outcome State Fault Refusal := step (s.deliver p)

/-- `ST` in internal order after one step on a packet. -/
def stAfter (s : State) (p : List Byte) : Option Block := (nextOf (sent s p)).map fun t => t.st

/-- The key of the source's golden vector (E6). -/
def key1 : Block := hexBlock 0x000102030405060708090a0b0c0d0e0f

/-- After reset and `KEYEXP 000102030405060708090a0b0c0d0e0f`. -/
def keyed : State := { State.reset with rk := keyExpand key1, kv := true }

/-- As keyed, and after `CBCIV 101112131415161718191a1b1c1d1e1f`, with these answers of the sink. -/
def chained (answers : List SinkAnswer) : State :=
  { keyed with cv := hexBlock 0x101112131415161718191a1b1c1d1e1f, cvv := true, sinkAnswers := answers }

/-- A build without the chaining layer. -/
def plain : State := { State.reset with cfg := ⟨false, true⟩ }

/-! ### WellFormed refuses an ill-formed term for each of its checks -/

theorem test_wf_pow_zero : (Instr.gfpow 0x57 0).wellFormed Config.default = false := by decide
theorem test_wf_pow_one : (Instr.gfpow 0x57 1).wellFormed Config.default = true := by decide
theorem test_wf_bit_index : (Instr.gfbit 0x63 8).wellFormed Config.default = false := by decide
theorem test_wf_bit_index_last : (Instr.gfbit 0x63 7).wellFormed Config.default = true := by decide
theorem test_wf_byte_index : (Instr.wbyte Word.zero 4).wellFormed Config.default = false := by decide
theorem test_wf_word_index : (Instr.bword Block.zero 4).wellFormed Config.default = false := by decide
theorem test_wf_key_index_read : (Instr.rkrd 11).wellFormed Config.default = false := by decide
theorem test_wf_key_index_add : (Instr.ark 11).wellFormed Config.default = false := by decide
theorem test_wf_no_chaining_iv : (Instr.cbciv Block.zero).wellFormed ⟨false, true⟩ = false := by decide
theorem test_wf_no_chaining_stream : (Instr.cbcenc []).wellFormed ⟨false, true⟩ = false := by decide

/-! ### Decoding: a packet of the spec for every command (R36 and the examples of 95, 96, 97) -/

theorem test_decode_stat : decode Config.default [0x01] = .ok (.stat) := by
  rfl

theorem test_decode_gfadd : decode Config.default [0x10, 0x57, 0x83] = .ok (.gfadd 0x57 0x83) := by
  rfl

theorem test_decode_gfmul : decode Config.default [0x11, 0x57, 0x83] = .ok (.gfmul 0x57 0x83) := by
  rfl

theorem test_decode_gfpow : decode Config.default [0x12, 0x53, 0xfe] = .ok (.gfpow 0x53 254) := by
  rfl

theorem test_decode_gfinv : decode Config.default [0x13, 0x53] = .ok (.gfinv 0x53) := by
  rfl

theorem test_decode_gfbit : decode Config.default [0x14, 0x63, 0x05] = .ok (.gfbit 0x63 5) := by
  rfl

theorem test_decode_sboxf : decode Config.default [0x20, 0x53] = .ok (.sboxf 0x53) := by
  rfl

theorem test_decode_sboxi : decode Config.default [0x21, 0xed] = .ok (.sboxi 0xed) := by
  rfl

theorem test_decode_rotw : decode Config.default [0x30, 0x09, 0xcf, 0x4f, 0x3c] = .ok (.rotw (hexWord 0x09cf4f3c)) := by
  rfl

theorem test_decode_subw : decode Config.default [0x31, 0xcf, 0x4f, 0x3c, 0x09] = .ok (.subw (hexWord 0xcf4f3c09)) := by
  rfl

theorem test_decode_xorw : decode Config.default [0x32, 0x8b, 0x84, 0xeb, 0x01, 0x2b, 0x7e, 0x15, 0x16] = .ok (.xorw (hexWord 0x8b84eb01) (hexWord 0x2b7e1516)) := by
  rfl

theorem test_decode_xorwc : decode Config.default [0x33, 0x00, 0x00, 0x00, 0x00, 0x44, 0x33, 0x22, 0x11] = .ok (.xorwc (hexWord 0x00000000) 0x11223344) := by
  rfl

theorem test_decode_wbyte : decode Config.default [0x34, 0xa0, 0xfa, 0xfe, 0x17, 0x03] = .ok (.wbyte (hexWord 0xa0fafe17) 3) := by
  rfl

theorem test_decode_bword : decode Config.default [0x35, 0x00, 0x01, 0x02, 0x03, 0x04, 0x05, 0x06, 0x07, 0x08, 0x09, 0x0a, 0x0b, 0x0c, 0x0d, 0x0e, 0x0f, 0x03] = .ok (.bword (hexBlock 0x000102030405060708090a0b0c0d0e0f) 3) := by
  rfl

theorem test_decode_bxor : decode Config.default [0x36, 0x00, 0x01, 0x02, 0x03, 0x04, 0x05, 0x06, 0x07, 0x08, 0x09, 0x0a, 0x0b, 0x0c, 0x0d, 0x0e, 0x0f, 0x00, 0x11, 0x22, 0x33, 0x44, 0x55, 0x66, 0x77, 0x88, 0x99, 0xaa, 0xbb, 0xcc, 0xdd, 0xee, 0xff] = .ok (.bxor (hexBlock 0x000102030405060708090a0b0c0d0e0f) (hexBlock 0x00112233445566778899aabbccddeeff)) := by
  rfl

theorem test_decode_keyexp : decode Config.default [0x40, 0x00, 0x01, 0x02, 0x03, 0x04, 0x05, 0x06, 0x07, 0x08, 0x09, 0x0a, 0x0b, 0x0c, 0x0d, 0x0e, 0x0f] = .ok (.keyexp (hexBlock 0x000102030405060708090a0b0c0d0e0f)) := by
  rfl

theorem test_decode_rkrd : decode Config.default [0x42, 0x0a] = .ok (.rkrd 10) := by
  rfl

theorem test_decode_stld : decode Config.default [0x50, 0x00, 0x11, 0x22, 0x33, 0x44, 0x55, 0x66, 0x77, 0x88, 0x99, 0xaa, 0xbb, 0xcc, 0xdd, 0xee, 0xff] = .ok (.stld (hexBlock 0x00112233445566778899aabbccddeeff)) := by
  rfl

theorem test_decode_strd : decode Config.default [0x51] = .ok (.strd) := by
  rfl

theorem test_decode_ark : decode Config.default [0x52, 0x0a] = .ok (.ark 10) := by
  rfl

theorem test_decode_subb : decode Config.default [0x53] = .ok (.subb) := by
  rfl

theorem test_decode_shrow : decode Config.default [0x54] = .ok (.shrow) := by
  rfl

theorem test_decode_mixc : decode Config.default [0x55] = .ok (.mixc) := by
  rfl

theorem test_decode_enc : decode Config.default [0x60, 0x00, 0x11, 0x22, 0x33, 0x44, 0x55, 0x66, 0x77, 0x88, 0x99, 0xaa, 0xbb, 0xcc, 0xdd, 0xee, 0xff] = .ok (.enc (hexBlock 0x00112233445566778899aabbccddeeff)) := by
  rfl

theorem test_decode_cbciv : decode Config.default [0x70, 0x10, 0x11, 0x12, 0x13, 0x14, 0x15, 0x16, 0x17, 0x18, 0x19, 0x1a, 0x1b, 0x1c, 0x1d, 0x1e, 0x1f] = .ok (.cbciv (hexBlock 0x101112131415161718191a1b1c1d1e1f)) := by
  rfl

theorem test_decode_cbcenc : decode Config.default [0x71, 0x41, 0x42] = .ok (.cbcenc [0x41, 0x42]) := by
  rfl

/-- The schedule of V-KS-1 as RKLD's payload. -/
def schedule1 : List Byte :=
  [0x00, 0x01, 0x02, 0x03, 0x04, 0x05, 0x06, 0x07, 0x08, 0x09, 0x0a, 0x0b, 0x0c, 0x0d, 0x0e, 0x0f] ++
    [0xd6, 0xaa, 0x74, 0xfd, 0xd2, 0xaf, 0x72, 0xfa, 0xda, 0xa6, 0x78, 0xf1, 0xd6, 0xab, 0x76, 0xfe] ++
    [0xb6, 0x92, 0xcf, 0x0b, 0x64, 0x3d, 0xbd, 0xf1, 0xbe, 0x9b, 0xc5, 0x00, 0x68, 0x30, 0xb3, 0xfe] ++
    [0xb6, 0xff, 0x74, 0x4e, 0xd2, 0xc2, 0xc9, 0xbf, 0x6c, 0x59, 0x0c, 0xbf, 0x04, 0x69, 0xbf, 0x41] ++
    [0x47, 0xf7, 0xf7, 0xbc, 0x95, 0x35, 0x3e, 0x03, 0xf9, 0x6c, 0x32, 0xbc, 0xfd, 0x05, 0x8d, 0xfd] ++
    [0x3c, 0xaa, 0xa3, 0xe8, 0xa9, 0x9f, 0x9d, 0xeb, 0x50, 0xf3, 0xaf, 0x57, 0xad, 0xf6, 0x22, 0xaa] ++
    [0x5e, 0x39, 0x0f, 0x7d, 0xf7, 0xa6, 0x92, 0x96, 0xa7, 0x55, 0x3d, 0xc1, 0x0a, 0xa3, 0x1f, 0x6b] ++
    [0x14, 0xf9, 0x70, 0x1a, 0xe3, 0x5f, 0xe2, 0x8c, 0x44, 0x0a, 0xdf, 0x4d, 0x4e, 0xa9, 0xc0, 0x26] ++
    [0x47, 0x43, 0x87, 0x35, 0xa4, 0x1c, 0x65, 0xb9, 0xe0, 0x16, 0xba, 0xf4, 0xae, 0xbf, 0x7a, 0xd2] ++
    [0x54, 0x99, 0x32, 0xd1, 0xf0, 0x85, 0x57, 0x68, 0x10, 0x93, 0xed, 0x9c, 0xbe, 0x2c, 0x97, 0x4e] ++
    [0x13, 0x11, 0x1d, 0x7f, 0xe3, 0x94, 0x4a, 0x17, 0xf3, 0x07, 0xa7, 0x8b, 0x4d, 0x2b, 0x30, 0xc5]

theorem test_decode_rkld :
    decode Config.default (0x41 :: schedule1) = .ok (.rkld (keyExpand key1)) := by decide +kernel

theorem test_encode_xorwc : encode (.xorwc (hexWord 0x8a84eb01) 0x00000001) =
    [0x33, 0x8a, 0x84, 0xeb, 0x01, 0x01, 0x00, 0x00, 0x00] := by decide

theorem test_table_word : decodeTableWord 8 0x13 = some (.gfinv 0) ∧ decodeTableWord 8 0x00 = none := by decide

/-! ### Commands, one step each (the response packets of 95, 96 and 97) -/

/-- V-SY-1. -/
theorem test_stat_reset : response (sent State.reset [0x01]) = some [0x00, 0x00, 0x00] := by decide +kernel

/-- R110's example: KEYEXP after ARK failed with NO_KEY. -/
theorem test_stat_keyed_error : response (sent { keyed with err := 0x10 } [0x01]) = some [0x00, 0x01, 0x10] := by decide +kernel

/-- E1. -/
theorem test_gfadd : response (sent State.reset [0x10, 0x57, 0x83]) = some [0x00, 0xd4] := by decide +kernel

/-- E1. -/
theorem test_gfadd_self : response (sent State.reset [0x10, 0x57, 0x57]) = some [0x00, 0x00] := by decide +kernel

/-- E2; 0x73 would be the wrong direction. -/
theorem test_gfmul : response (sent State.reset [0x11, 0x57, 0x83]) = some [0x00, 0xc1] := by decide +kernel

/-- V-GF-1. -/
theorem test_gfmul_reduce : response (sent State.reset [0x11, 0x80, 0x02]) = some [0x00, 0x1b] := by decide +kernel

/-- V-GF-3. -/
theorem test_gfpow : response (sent State.reset [0x12, 0x02, 0x0a]) = some [0x00, 0x6c] := by decide +kernel

/-- V-GF-3, n = 0. -/
theorem test_gfpow_zero : response (sent State.reset [0x12, 0x57, 0x00]) = some [0x04] := by decide +kernel

/-- V-GF-3. -/
theorem test_gfinv : response (sent State.reset [0x13, 0x53]) = some [0x00, 0xca] := by decide +kernel

/-- V-GF-3. -/
theorem test_gfinv_zero : response (sent State.reset [0x13, 0x00]) = some [0x00, 0x00] := by decide +kernel

/-- V-GF-3. -/
theorem test_gfbit : response (sent State.reset [0x14, 0x80, 0x07]) = some [0x00, 0x01] := by decide +kernel

/-- V-GF-3, first illegal index. -/
theorem test_gfbit_range : response (sent State.reset [0x14, 0x63, 0x08]) = some [0x02] := by decide +kernel

/-- E4. -/
theorem test_sboxf : response (sent State.reset [0x20, 0x53]) = some [0x00, 0xed] := by decide +kernel

/-- E4. -/
theorem test_sboxf_last : response (sent State.reset [0x20, 0xff]) = some [0x00, 0x16] := by decide +kernel

/-- E4. -/
theorem test_sboxi : response (sent State.reset [0x21, 0xed]) = some [0x00, 0x53] := by decide +kernel

/-- V-SB-1. -/
theorem test_sboxi_last : response (sent State.reset [0x21, 0xff]) = some [0x00, 0x7d] := by decide +kernel

/-- E10. -/
theorem test_rotw : response (sent State.reset [0x30, 0x00, 0x01, 0x02, 0x03]) = some [0x00, 0x01, 0x02, 0x03, 0x00] := by decide +kernel

/-- V-WB-1. -/
theorem test_subw : response (sent State.reset [0x31, 0xcf, 0x4f, 0x3c, 0x09]) = some [0x00, 0x8a, 0x84, 0xeb, 0x01] := by decide +kernel

/-- V-WB-1. -/
theorem test_xorw : response (sent State.reset [0x32, 0x8b, 0x84, 0xeb, 0x01, 0x2b, 0x7e, 0x15, 0x16]) = some [0x00, 0xa0, 0xfa, 0xfe, 0x17] := by decide +kernel

/-- V-WB-1. -/
theorem test_xorwc : response (sent State.reset [0x33, 0x00, 0x00, 0x00, 0x00, 0x44, 0x33, 0x22, 0x11]) = some [0x00, 0x44, 0x33, 0x22, 0x11] := by decide +kernel

/-- V-WB-1, last legal index. -/
theorem test_wbyte : response (sent State.reset [0x34, 0xa0, 0xfa, 0xfe, 0x17, 0x03]) = some [0x00, 0x17] := by decide +kernel

/-- V-WB-1. -/
theorem test_wbyte_range : response (sent State.reset [0x34, 0xa0, 0xfa, 0xfe, 0x17, 0x04]) = some [0x02] := by decide +kernel

/-- V-WB-1. -/
theorem test_bword : response (sent State.reset [0x35, 0x00, 0x01, 0x02, 0x03, 0x04, 0x05, 0x06, 0x07, 0x08, 0x09, 0x0a, 0x0b, 0x0c, 0x0d, 0x0e, 0x0f, 0x03]) = some [0x00, 0x0c, 0x0d, 0x0e, 0x0f] := by decide +kernel

/-- V-WB-1. -/
theorem test_bword_range : response (sent State.reset [0x35, 0x00, 0x01, 0x02, 0x03, 0x04, 0x05, 0x06, 0x07, 0x08, 0x09, 0x0a, 0x0b, 0x0c, 0x0d, 0x0e, 0x0f, 0x04]) = some [0x02] := by decide +kernel

/-- V-WB-1. -/
theorem test_bxor : response (sent State.reset [0x36, 0x00, 0x01, 0x02, 0x03, 0x04, 0x05, 0x06, 0x07, 0x08, 0x09, 0x0a, 0x0b, 0x0c, 0x0d, 0x0e, 0x0f, 0x00, 0x11, 0x22, 0x33, 0x44, 0x55, 0x66, 0x77, 0x88, 0x99, 0xaa, 0xbb, 0xcc, 0xdd, 0xee, 0xff]) = some [0x00, 0x00, 0x10, 0x20, 0x30, 0x40, 0x50, 0x60, 0x70, 0x80, 0x90, 0xa0, 0xb0, 0xc0, 0xd0, 0xe0, 0xf0] := by decide +kernel

/-- V-KS-5. -/
theorem test_keyexp : response (sent State.reset [0x40, 0x00, 0x01, 0x02, 0x03, 0x04, 0x05, 0x06, 0x07, 0x08, 0x09, 0x0a, 0x0b, 0x0c, 0x0d, 0x0e, 0x0f]) = some [0x00] := by decide +kernel

/-- V-KS-5: a payload of another length. -/
theorem test_rkld_length : response (sent keyed [0x41, 0x00, 0x01]) = some [0x01] := by decide +kernel

/-- V-KS-5. -/
theorem test_rkrd : response (sent keyed [0x42, 0x0a]) = some [0x00, 0x13, 0x11, 0x1d, 0x7f, 0xe3, 0x94, 0x4a, 0x17, 0xf3, 0x07, 0xa7, 0x8b, 0x4d, 0x2b, 0x30, 0xc5] := by decide +kernel

/-- V-KS-5: index before NO_KEY. -/
theorem test_rkrd_index_first : response (sent State.reset [0x42, 0x0b]) = some [0x02] := by decide +kernel

/-- V-RD-1. -/
theorem test_strd : response (sent { State.reset with st := hexBlock 0x0004080c05090d010a0e02060f03070b } [0x51]) = some [0x00, 0x00, 0x05, 0x0a, 0x0f, 0x04, 0x09, 0x0e, 0x03, 0x08, 0x0d, 0x02, 0x07, 0x0c, 0x01, 0x06, 0x0b] := by decide +kernel

/-- V-RD-1. -/
theorem test_ark_no_key : response (sent State.reset [0x52, 0x00]) = some [0x05] := by decide +kernel

/-- V-CH-8. -/
theorem test_cbciv : response (sent State.reset [0x70, 0x10, 0x11, 0x12, 0x13, 0x14, 0x15, 0x16, 0x17, 0x18, 0x19, 0x1a, 0x1b, 0x1c, 0x1d, 0x1e, 0x1f]) = some [0x00] := by decide +kernel

/-- V-CH-9: CHAINING_EN false. -/
theorem test_cbciv_absent : response (sent plain [0x70, 0x10, 0x11, 0x12, 0x13, 0x14, 0x15, 0x16, 0x17, 0x18, 0x19, 0x1a, 0x1b, 0x1c, 0x1d, 0x1e, 0x1f]) = some [0x04] := by decide +kernel

/-- V-EN-4: length before NO_KEY. -/
theorem test_enc_length_first : response (sent State.reset [0x60, 0x00, 0x11, 0x22, 0x33, 0x44, 0x55, 0x66, 0x77, 0x88, 0x99, 0xaa, 0xbb, 0xcc, 0xdd, 0xee]) = some [0x01] := by decide +kernel

/-- V-EN-4. -/
theorem test_enc_no_key : response (sent State.reset [0x60, 0x00, 0x11, 0x22, 0x33, 0x44, 0x55, 0x66, 0x77, 0x88, 0x99, 0xaa, 0xbb, 0xcc, 0xdd, 0xee, 0xff]) = some [0x05] := by decide +kernel

/-- V-CH-8. -/
theorem test_cbcenc_no_key : response (sent State.reset [0x71]) = some [0x05] := by decide +kernel

/-- V-CH-8, last line. -/
theorem test_cbcenc_no_iv : response (sent keyed [0x71]) = some [0x06] := by decide +kernel

/-- V-SY-1. -/
theorem test_reserved_72 : response (sent State.reset [0x72]) = some [0x04] := by decide +kernel

/-- V-SY-1. -/
theorem test_reserved_00 : response (sent State.reset [0x00, 0x00, 0x00, 0x00, 0x00, 0x00, 0x00, 0x00, 0x00, 0x00, 0x00, 0x00, 0x00, 0x00, 0x00, 0x00, 0x00]) = some [0x04] := by decide +kernel

/-- V-SY-1, the packet with no bytes. -/
theorem test_empty : response (sent State.reset []) = some [0x04] := by decide +kernel

/-- V-RD-1: internal order. -/
theorem test_stld : stAfter State.reset [0x50, 0x00, 0x11, 0x22, 0x33, 0x44, 0x55, 0x66, 0x77, 0x88, 0x99, 0xaa, 0xbb, 0xcc, 0xdd, 0xee, 0xff] = some (hexBlock 0x004488cc115599dd2266aaee3377bbff) := by decide +kernel

/-- V-RD-1. -/
theorem test_ark : stAfter { keyed with st := hexBlock 0x004488cc115599dd2266aaee3377bbff } [0x52, 0x0a] = some (hexBlock 0x13a77b8100c19ef63f2c0dde4c60303a) := by decide +kernel

/-- V-RD-1. -/
theorem test_subb : stAfter { State.reset with st := hexBlock 0x0004080c0105090d02060a0e03070b0f } [0x53] = some (hexBlock 0x63f230fe7c6b01d7776f67ab7bc52b76) := by decide +kernel

/-- V-RD-1. -/
theorem test_shrow : stAfter { State.reset with st := hexBlock 0x0004080c0105090d02060a0e03070b0f } [0x54] = some (hexBlock 0x0004080c05090d010a0e02060f03070b) := by decide +kernel

/-- V-RD-1. -/
theorem test_mixc : stAfter { State.reset with st := hexBlock 0xdbf201c6130a01c6532201c6455c01c6 } [0x55] = some (hexBlock 0x8e9f01c64ddc01c6a15801c6bc9d01c6) := by decide +kernel

/-- V-RD-1. -/
theorem test_mixc_second : stAfter { State.reset with st := hexBlock 0xd4e0b81ebfb441275d52119830aef1e5 } [0x55] = some (hexBlock 0x04e0482866cbf8068119d326e59a7a4c) := by decide +kernel

/-- V-KS-2: all round keys of key 2b7e15..3c after KEYEXP, round keys 1 and 10 shown. -/
theorem test_keyexp_schedule :
    (nextOf (sent State.reset (0x40 :: (hexBlock 0x2b7e151628aed2a6abf7158809cf4f3c).bytes))).map
      (fun t => (t.rk.k1, t.rk.k10, t.kv)) =
      some (hexBlock 0xa0fafe1788542cb123a339392a6c7605, hexBlock 0xd014f9a8c9ee2589e13f0cc8b6630ca6, true) := by
  decide +kernel

/-- V-KS-5: RKLD of the bytes KEYEXP would make leaves the same registers. -/
theorem test_rkld_schedule :
    (nextOf (sent State.reset (0x41 :: schedule1))).map (fun t => (t.rk, t.kv)) = some (keyExpand key1, true) := by
  decide +kernel

set_option maxRecDepth 100000 in
/-- E6, the golden vector: the response, and `ST` and `RND` after it. -/
theorem test_enc_golden :
    (nextOf (sent keyed (0x60 :: (hexBlock 0x00112233445566778899aabbccddeeff).bytes))).map
      (fun t => (responses t.out, t.st, t.rnd)) =
      some ([0x00 :: (hexBlock 0x69c4e0d86a7b0430d8cdb78070b4c55a).bytes],
        hexBlock 0x696ad870c47bcdb4e004b7c5d830805a, 0) := by decide +kernel

set_option maxRecDepth 100000 in
/-- V-EN-1: number of trace events, the fifth event and the last. -/
theorem test_enc_trace :
    (nextOf (sent keyed (0x60 :: (hexBlock 0x00112233445566778899aabbccddeeff).bytes))).map
      (fun t => ((t.out.filter isTrace).length, (t.out.filter isTrace)[4]?, (t.out.filter isTrace)[39]?)) =
      some (40, some (.trace ⟨1, .ark, hexBlock 0x89852dcbd85a181210ce438fe868d8e4⟩),
        some (.trace ⟨10, .ark, hexBlock 0x696ad870c47bcdb4e004b7c5d830805a⟩)) := by decide +kernel

set_option maxRecDepth 100000 in
/-- V-CH-3: sink blocks, response, `CV`. -/
theorem test_cbcenc_two_blocks :
    (nextOf (sent (chained [.accept, .accept]) (0x71 :: (hexBlock 0x00112233445566778899aabbccddeeff).bytes))).map
      (fun t => (delivered t.out, responses t.out, t.cv)) =
      some ([hexBlock 0x1eca870ffea114b7fd6cf363c30b96b1, hexBlock 0x0d47f7c33722bae48a4489a6bb9d993d], [[0x00]],
        hexBlock 0x0d47f7c33722bae48a4489a6bb9d993d) := by decide +kernel

set_option maxRecDepth 100000 in
/-- V-CH-9, rejected write 1 of a stream of 16 bytes 0x10: delivered block, response, `CV`, `ERR`; `ST` is that of
the rejected block. -/
theorem test_cbcenc_rejected :
    (nextOf (sent (chained [.accept, .reject]) (0x71 :: List.replicate 16 0x10))).map
      (fun t => (delivered t.out, responses t.out, t.cv, t.err, drain t.st)) =
      some ([hexBlock 0x0a940bb5416ef045f1c39458c653ea5a], [[0x03]], hexBlock 0x0a940bb5416ef045f1c39458c653ea5a,
        0x04, hexBlock 0xd172ce43bf147f4dffa206c1d372ddca) := by decide +kernel

/-- E7: the padded streams of L = 16 and L = 15. -/
theorem test_padding :
    plaintextBlocks (List.replicate 16 0xdd) =
        [hexBlock 0xdddddddddddddddddddddddddddddddd, hexBlock 0x10101010101010101010101010101010] ∧
      plaintextBlocks (List.replicate 15 0xdd) = [hexBlock 0xdddddddddddddddddddddddddddddd01] := by
  decide +kernel

/-- R123: a reset in the middle of a stream, after one accepted write: the block stays delivered, no response, the
registers as after reset. -/
theorem test_reset_in_stream :
    (nextOf (step { chained [.accept, .accept] with
        cfg := ⟨true, false⟩, cmdIn := [.resetDuring (0x71 :: List.replicate 16 0x10) 1 0] })).map
      (fun t => (delivered t.out, responses t.out, t.kv, t.st, t.sinkCount)) =
      some ([hexBlock 0x0a940bb5416ef045f1c39458c653ea5a], [], false, Block.zero, 1) := by decide +kernel

/-- R42's examples: the text of a command and of its response. -/
theorem test_text :
    asmText (.gfmul 0x57 0x83) = "GFMUL 0x57, 0x83".toList ∧
      asmText (.xorwc (hexWord 0x8a84eb01) 0x00000001) = "XORWC 8a84eb01, 0x00000001".toList ∧
      responseText [0x00, 0xc1] = "-> OK c1".toList ∧ responseText [0x02] = "-> INVALID_INDEX".toList := by decide

/-! ### Witnesses: for every statement with hypotheses, a state and operands that meet all of them, and one at the
boundary of every clause -/

/-- Three packets at the port of a keyed block: a command, an error of the decoder, and more to come. -/
theorem witness_StepRunsDecodedCommand :
    (keyed.deliver [0x52, 0x0a]).cmdIn = .packet [0x52, 0x0a] :: [] ∧
      decode (keyed.deliver [0x52, 0x0a]).cfg [0x52, 0x0a] = .ok (.ark 10) ∧
      decode keyed.cfg [0x52] = .error .sizeMismatch ∧ decode keyed.cfg [0x72] = .error .illegalCommand := by
  exact ⟨rfl, rfl, rfl, rfl⟩

/-- A reset between commands, and resets inside a CBCENC that makes two writes: before the first, after the first, and
after more than it makes. -/
theorem witness_ResetAtAnyTime :
    ({ keyed with cmdIn := [.reset] } : State).cmdIn = .reset :: [] ∧
      (∃ u, runPacket (0x71 :: List.replicate 16 0x10) (chained [.accept, .accept]) = .next u) ∧
      ∀ w ∈ ([0, 1, 3] : List Nat),
        ({ chained [.accept, .accept] with cmdIn := [.resetDuring (0x71 :: List.replicate 16 0x10) w 0] } : State).cmdIn =
          .resetDuring (0x71 :: List.replicate 16 0x10) w 0 :: [] :=
  ⟨rfl, ⟨_, rfl⟩, fun _ _ => rfl⟩

set_option maxRecDepth 100000 in
/-- R123 at those resets, in a build without trace: 0, 1 and 2 of the two writes have left and stay delivered. -/
theorem test_reset_keeps_writes :
    ([0, 1, 3] : List Nat).map (fun w =>
      (nextOf (step { chained [.accept, .accept] with
          cfg := ⟨true, false⟩, cmdIn := [.resetDuring (0x71 :: List.replicate 16 0x10) w 0] })).map
        (fun t => ((delivered t.out).length, t.sinkCount, responses t.out))) =
      [some (0, 0, []), some (1, 1, []), some (2, 2, [])] := by decide +kernel

/-- A packet that succeeds and one that fails. -/
theorem witness_EveryPacketOneResponse :
    (State.reset.deliver [0x01]).cmdIn = .packet [0x01] :: [] ∧ decode State.reset.cfg [0x01] = .ok .stat ∧
      decode State.reset.cfg [] = .error .illegalCommand := ⟨rfl, rfl, rfl⟩

/-- Both ends of every reserved range of R37, and the opcodes next to them that are assigned. -/
theorem witness_ReservedOpcodesIllegal :
    (∀ op ∈ ([0x00, 0x02, 0x0F, 0x15, 0x1F, 0x22, 0x2F, 0x37, 0x3F, 0x43, 0x4F, 0x56, 0x5F, 0x61, 0x6F, 0x72, 0xFF]
        : List Byte), Reserved Config.default op) ∧
      (∀ op ∈ ([0x01, 0x10, 0x14, 0x20, 0x21, 0x30, 0x36, 0x40, 0x42, 0x50, 0x55, 0x60, 0x70, 0x71] : List Byte),
        ¬ Reserved Config.default op) ∧
      Reserved ⟨false, true⟩ 0x70 ∧ Reserved ⟨false, true⟩ 0x71 ∧ (plain.deliver [0x71]).cmdIn = [.packet [0x71]] ∧
      (plain.deliver []).cmdIn = [.packet []] :=
  ⟨by simp only [Reserved]; decide, by simp only [Reserved]; decide, by simp only [Reserved]; decide,
    by simp only [Reserved]; decide, rfl, rfl⟩

/-- A payload one byte short and one byte long; CBCENC of no byte. -/
theorem witness_WrongLengthSizeMismatch :
    ((0x40#8).toNat, 16) ∈ fixedLengths ∧ (List.replicate 15 (0 : Byte)).length ≠ 16 ∧
      (List.replicate 17 (0 : Byte)).length ≠ 16 ∧ ((0x70#8).toNat, 16) ∈ fixedLengths ∧
      State.reset.cfg.chainingEn = true ∧ Config.default.chainingEn = true ∧
      (State.reset.deliver [0x42]).cmdIn = [.packet [0x42]] ∧ ((0x42#8).toNat, 1) ∈ fixedLengths ∧
      ([] : List Byte).length ≠ 1 := by decide

/-- The first opcode of the map and the last. -/
theorem witness_OpcodeMapSelectsCommand :
    Config.default.chainingEn = true ∧ ((0x01#8).toNat, "STAT".toList) ∈ opcodeMap ∧
      ((0x71#8).toNat, "CBCENC".toList) ∈ opcodeMap ∧ decode Config.default [0x71, 0x00] = .ok (.cbcenc [0x00]) := by
  decide

/-- A command of every build, and one that only the chaining layer has. -/
theorem witness_DecodeOfEncode :
    (Instr.gfpow 0x57 0).exists? ⟨false, false⟩ = true ∧ (Instr.cbcenc [0x41]).exists? Config.default = true ∧
      (Instr.cbcenc [0x41]).exists? ⟨false, true⟩ = false := by decide

/-- A packet that decodes, of every operand form with a number in it. -/
theorem witness_EncodeOfDecode :
    decode Config.default [0x33, 0, 0, 0, 0, 0xff, 0, 0, 0x80] = .ok (.xorwc Word.zero 0x800000ff) ∧
      decode Config.default [0x14, 0x57, 0xff] = .ok (.gfbit 0x57 255) := ⟨rfl, rfl⟩

/-- A packet for each of the six checks, and one that passes them all. -/
theorem witness_ErrorsInPriorityOrder :
    firstError State.reset [] = some .illegalCommand ∧ firstError State.reset [0x72] = some .illegalCommand ∧
      firstError State.reset [0x12, 0x57] = some .sizeMismatch ∧
      firstError State.reset [0x12, 0x57, 0x00] = some .illegalCommand ∧ firstError State.reset [0x12, 0x57, 0x01] = none ∧
      firstError State.reset [0x42, 0x0b] = some .invalidIndex ∧ firstError State.reset [0x42, 0x0a] = some .noKey ∧
      firstError State.reset [0x71] = some .noKey ∧ firstError { State.reset with kv := true } [0x71] = some .noIv ∧
      firstError { State.reset with kv := true, cvv := true } [0x71] = none ∧
      firstError { State.reset with kv := true } [0x42, 0x0a] = none ∧
      firstError State.reset [0x14, 0x57, 0x08] = some .invalidIndex ∧ firstError State.reset [0x14, 0x57, 0x07] = none ∧
      firstError plain [0x71] = some .illegalCommand := by decide

/-- Two payloads of WBYTE that agree on the index and on nothing else. -/
theorem witness_DataNeverFails :
    ([0x00, 0x01, 0x02, 0x03, 0x04] : List Byte).length = ([0xff, 0xfe, 0xfd, 0xfc, 0x04] : List Byte).length ∧
      ∀ k, operandPosition 0x34 = some k →
        ([0x00, 0x01, 0x02, 0x03, 0x04] : List Byte)[k]? = ([0xff, 0xfe, 0xfd, 0xfc, 0x04] : List Byte)[k]? := by
  refine ⟨rfl, fun k h => ?_⟩
  have : k = 4 := by simpa [operandPosition, List.lookup] using h.symm
  subst this
  rfl

/-- A packet that sets an `ERR` bit and one that sets none. -/
theorem witness_ErrIsSticky :
    (State.reset.deliver [0x52, 0x00]).cmdIn = [.packet [0x52, 0x00]] ∧
      (nextOf (sent { State.reset with err := 0x41 } [0x52, 0x00])).map (fun t => t.err) = some 0x51 ∧
      (nextOf (sent { State.reset with err := 0x41 } [0x51])).map (fun t => t.err) = some 0x41 := by decide +kernel

/-- A command other than STAT. -/
theorem witness_ErrReadByStatOnly : Instr.strd ≠ .stat := by decide

/-- The invariant holds of a state some steps from reset, and of a build without the chaining layer; both have a next
state. -/
theorem witness_InvariantKeptByEveryStep :
    Inv ({ keyed with err := 0x3f } : State) ∧ Inv ({ plain with err := 0x1b } : State) ∧
      (∃ t, step ({ keyed with err := 0x3f } : State) = .next t) ∧ ∃ t, step (plain.deliver [0x71]) = .next t :=
  ⟨⟨rfl, rfl, rfl, fun h => nomatch h⟩, ⟨rfl, rfl, rfl, fun _ => ⟨rfl, rfl, rfl⟩⟩, ⟨_, rfl⟩, ⟨_, rfl⟩⟩

/-- KEYEXP, RKLD and a command that is neither, each with a next state. -/
theorem witness_RoundKeyFileWrittenWhole :
    (∃ t, exec (.keyexp key1) State.reset = .next t) ∧ (∃ t, exec (.rkld Schedule.zero) keyed = .next t) ∧
      (∃ t, exec .strd keyed = .next t) ∧ writesRk .strd = false := ⟨⟨_, rfl⟩, ⟨_, rfl⟩, ⟨_, rfl⟩, rfl⟩

/-- Flags set before and kept, flags set by the command, and a command that leaves `CV` alone. -/
theorem witness_ValidFlagsAndChainingValue :
    (∃ t, exec .stat (chained []) = .next t ∧ t.kv = true ∧ t.cvv = true) ∧ (chained []).kv = true ∧
      (chained []).cvv = true ∧ (∃ t, exec (.cbciv key1) State.reset = .next t ∧ t.cvv = true) ∧
      (∃ t, exec (.keyexp key1) State.reset = .next t ∧ t.kv = true) :=
  ⟨⟨_, rfl, rfl, rfl⟩, rfl, rfl, ⟨_, rfl, rfl⟩, ⟨_, rfl, rfl⟩⟩

/-- A command that writes `ST` and one that does not, on a state with `RND` = 0. -/
theorem witness_StateRegisterWriters :
    (∃ t, exec .subb State.reset = .next t) ∧ (∃ t, exec .strd State.reset = .next t) ∧ writesSt .strd = false ∧
      State.reset.rnd = 0 := ⟨⟨_, rfl⟩, ⟨_, rfl⟩, rfl, rfl⟩

/-- A pure command that answers and one that raises. -/
theorem witness_PureCommandsTouchNoRegister :
    isPure (.gfbit 0x57 7) = true ∧ isPure (.gfbit 0x57 8) = true ∧ isPure (.gfpow 0x57 0) = true := by decide

/-- A step with a next state. -/
theorem witness_BuildAndOutputsKept : ∃ t, step (keyed.deliver [0x51]) = .next t := ⟨_, rfl⟩

/-- No key loaded, and a command that loads one: `KV` afterwards. -/
theorem witness_UnloadedKeysUnobservable :
    (State.reset.deliver (encode (.keyexp key1))).kv = false ∧
      (nextOf (sent State.reset (encode (.keyexp key1)))).map (fun t => t.kv) = some true := by decide +kernel

/-- No IV loaded, and a command that loads one: `CVV` afterwards. -/
theorem witness_UnloadedIvUnobservable :
    (keyed.deliver (encode (.cbciv key1))).cvv = false ∧
      (nextOf (sent keyed (encode (.cbciv key1)))).map (fun t => t.cvv) = some true := by decide +kernel

/-- A step that records events. -/
theorem witness_TraceHasNoEffect :
    ∃ t, step (keyed.deliver (encode (.enc key1))) = .next t ∧ keyed.cfg.traceEn = true := ⟨_, rfl, rfl⟩

/-- Two bytes whose product is 0, the two cases of bit 7, and the smallest exponent. -/
theorem witness_FieldLaws :
    gfMul 0x00 0x57 = 0 ∧ (0x80#8).getLsbD 7 = true ∧ (0x7f#8).getLsbD 7 = false ∧ (1 : Nat) ≠ 0 ∧
      (0x01 : Byte) ≠ 0 := by decide +kernel

/-- The exponents 0, 1 and 255 of GFPOW. -/
theorem witness_PowerCommand :
    (0x00 : Byte) = 0 ∧ (0x01#8).toNat ≠ 0 ∧ (0xff#8).toNat ≠ 0 ∧
      ([0x57] : List Byte).length ≠ 2 ∧ response (sent State.reset [0x12, 0x57, 0x01]) = some [0x00, 0x57] ∧
      response (sent State.reset [0x12, 0x57, 0xff]) = some [0x00, 0x01] := by decide +kernel

/-- The last index of GFBIT and the first beyond it. -/
theorem witness_BitCommand :
    (0x07#8).toNat ≤ 7 ∧ 7 < (0x08#8).toNat ∧ (0x00#8).toNat ≤ 7 ∧ ([] : List Byte).length ≠ 2 := by decide

/-- Equal outputs of SboxF. -/
theorem witness_SboxContract : sboxF 0x53 = sboxF 0x53 := rfl

/-- The indices 0, 3 and 4 of WBYTE and BWORD. -/
theorem witness_AccessorCommands :
    (0x00#8).toNat = (0 : Fin 4).val ∧ (0x03#8).toNat = (3 : Fin 4).val ∧ 3 < (0x04#8).toNat ∧
      (0x03#8).toNat ≤ 3 := by decide

/-- The round-key indices 0, 10 and 11, with a key and without, of RKRD and ARK. -/
theorem witness_RoundKeyIndex :
    (0x00#8).toNat = (0 : Fin 11).val ∧ (0x0a#8).toNat = (10 : Fin 11).val ∧ keyed.kv = true ∧ 10 < (0x0b#8).toNat ∧
      (0x0a#8).toNat ≤ 10 ∧ State.reset.kv = false ∧ ([] : List Byte).length ≠ 1 :=
  ⟨rfl, rfl, rfl, by decide, by decide, rfl, by decide⟩

/-- Payloads that are not the length of the state, key and cipher commands. -/
theorem witness_OnlyLength :
    ([0x00] : List Byte).length ≠ 0 ∧ (List.replicate 15 (0 : Byte)).length ≠ 16 ∧
      (List.replicate 175 (0 : Byte)).length ≠ 176 ∧ (List.replicate 31 (0 : Byte)).length ≠ 32 ∧
      (List.replicate 3 (0 : Byte)).length ≠ 4 ∧ (List.replicate 7 (0 : Byte)).length ≠ 8 ∧
      ([] : List Byte).length ≠ 1 ∧ (List.replicate 18 (0 : Byte)).length ≠ 17 := by simp

/-- ENC and ENCSEQ with a key, ENC without. -/
theorem witness_EncryptCommand : keyed.kv = true ∧ State.reset.kv = false := ⟨rfl, rfl⟩

/-- The 42 commands of ENCSEQ run on a keyed state. -/
theorem witness_EncseqEqualsEnc : keyed.kv = true ∧ (encSeq key1).length = 42 := by
  exact ⟨rfl, by decide⟩

/-- Equal ciphertexts under one schedule. -/
theorem witness_EncryptInjective : encrypt key1 Schedule.zero = encrypt key1 Schedule.zero := rfl

/-- CBCIV in both builds. -/
theorem witness_IvCommand :
    State.reset.cfg.chainingEn = true ∧ plain.cfg.chainingEn = false ∧ (List.replicate 17 (0 : Byte)).length ≠ 16 := by
  decide

/-- CBCENC with the sink accepting both writes of a stream of 16 bytes, and the three errors before the first block. -/
theorem witness_StreamEncryptCommand :
    (chained [.accept, .accept]).cfg.chainingEn = true ∧ (chained [.accept, .accept]).kv = true ∧
      (chained [.accept, .accept]).cvv = true ∧
      (∀ j < (List.replicate 16 (0x10 : Byte)).length / 16 + 1,
        (chained [.accept, .accept]).answerAt ((chained [.accept, .accept]).sinkCount + j) = .accept) ∧
      plain.cfg.chainingEn = false ∧ State.reset.kv = false ∧ keyed.cvv = false :=
  ⟨rfl, rfl, rfl, by decide, rfl, rfl, rfl⟩

/-- CBCENC of 16 bytes with write 0 rejected, and with write 1, the last, rejected. -/
theorem witness_SinkFailureLeaves :
    (chained [.reject]).answerAt ((chained [.reject]).sinkCount + 0) = .reject ∧
      (∀ m < 1, (chained [.accept, .reject]).answerAt ((chained [.accept, .reject]).sinkCount + m) = .accept) ∧
      (chained [.accept, .reject]).answerAt ((chained [.accept, .reject]).sinkCount + 1) = .reject ∧
      1 < (List.replicate 16 (0x10 : Byte)).length / 16 + 1 ∧ (chained [.reject]).cfg.chainingEn = true ∧
      (chained [.reject]).kv = true ∧ (chained [.reject]).cvv = true :=
  ⟨by decide, by decide, by decide, by decide, rfl, rfl, rfl⟩

end Sys2Proof.Tests
end

section
/-! SUPPORT. What a step does with a packet, and what every command leaves at the ports: one response, sent last (R33).
Settles the statement on responses. -/

namespace Sys2Proof.Machine

open Sys2Proof.Safety

/-! ### A step on a packet -/

/-- A step with a packet at the port takes it and runs it. -/
theorem step_packet {s : State} {p : List Byte} {rest : List HostEvent} (h : s.cmdIn = .packet p :: rest) :
    step s = runPacket p { s with cmdIn := rest } := by
  simp [step, takeEvent, h, runEvent]

/-- A packet the decoder accepts is run as the command it decodes to. -/
theorem runPacket_of_decode_ok {s : State} {p : List Byte} {i : Instr} (h : decode s.cfg p = .ok i) :
    runPacket p s = exec i s := by
  simp [runPacket, h]

/-- A packet the decoder rejects is answered with the error it is rejected by. -/
theorem runPacket_of_decode_error {s : State} {p : List Byte} {e : Err} (h : decode s.cfg p = .error e) :
    runPacket p s = .next (failed s e) := by
  simp [runPacket, h, raise_eq_failed]

/-- A step on a packet the decoder accepts: the packet is taken, and the command it decodes to is run. -/
theorem step_of_decode_ok {s : State} {p : List Byte} {rest : List HostEvent} {i : Instr}
    (h : s.cmdIn = .packet p :: rest) (hi : decode s.cfg p = .ok i) : step s = exec i { s with cmdIn := rest } :=
  (step_packet h).trans (runPacket_of_decode_ok hi)

/-- A step on a packet the decoder rejects: the packet is taken, the command fails, nothing else changes. -/
theorem step_of_decode_error {s : State} {p : List Byte} {rest : List HostEvent} {e : Err}
    (h : s.cmdIn = .packet p :: rest) (he : decode s.cfg p = .error e) :
    step s = .next (failed { s with cmdIn := rest } e) :=
  (step_packet h).trans (runPacket_of_decode_error he)

/-! ### What every command leaves at the ports -/

/-- `t` is `s` after a command with `n` result bytes on success: the inputs and the build are kept, the outputs grow by
some that are no response and then one response, either OK with `ERR` kept or one error's code with its `ERR` bit. -/
structure Completes (s t : State) (n : Nat) : Prop where
  cmdIn : t.cmdIn = s.cmdIn
  cfg : t.cfg = s.cfg
  sinkAnswers : t.sinkAnswers = s.sinkAnswers
  response : ∃ before r, t.out = s.out ++ before ++ [.response r] ∧ (∀ o ∈ before, isResponse o = false) ∧
    ((∃ result, r = 0x00 :: result ∧ result.length = n ∧ t.err = s.err) ∨
      ∃ e, r = [(errRow e).1] ∧ t.err = s.err ||| (errRow e).2)

/-- The outcome is a next state, and one in which the command has completed. -/
def CompletesTo (s : State) (n : Nat) (x : Host.Outcome State Fault Refusal) : Prop :=
  ∃ t, x = .next t ∧ Completes s t n

/-- Raising an error completes a command of every result length. -/
theorem completesTo_raise (s : State) (e : Err) (n : Nat) : CompletesTo s n (.next (s.raise e)) :=
  ⟨_, rfl, rfl, rfl, rfl, [], [errCode e], by simp, by simp,
    .inr ⟨e, congrArg (fun c => [c]) (errCode_eq e), stickyErr_eq s.err e⟩⟩

/-- Responding completes the command, whatever registers it has written before. -/
theorem completesTo_respond {s u : State} {n : Nat} {result : List Byte} (hn : result.length = n)
    (hin : u.cmdIn = s.cmdIn) (hcfg : u.cfg = s.cfg) (hans : u.sinkAnswers = s.sinkAnswers) (herr : u.err = s.err)
    {before : List PortOut} (hout : u.out = s.out ++ before) (hb : ∀ o ∈ before, isResponse o = false) :
    CompletesTo s n (.next (u.respond result)) :=
  ⟨_, rfl, hin, hcfg, hans, before, 0x00 :: result, by simp [hout], hb, .inl ⟨result, rfl, hn, herr⟩⟩

/-- Responding completes a command that has sent nothing before. -/
theorem completesTo_answer {s u : State} {n : Nat} {result : List Byte} (hn : result.length = n)
    (hin : u.cmdIn = s.cmdIn) (hcfg : u.cfg = s.cfg) (hans : u.sinkAnswers = s.sinkAnswers) (herr : u.err = s.err)
    (hout : u.out = s.out) :
    CompletesTo s n (.next (u.respond result)) :=
  completesTo_respond (before := []) hn hin hcfg hans herr (by simp [hout]) (by simp)

/-- A command behind a check completes if it does when the check passes; otherwise it raises the check's error. -/
theorem completesTo_check {s : State} {n : Nat} {c : Bool} {e : Err} {x : Host.Outcome State Fault Refusal}
    (hx : CompletesTo s n x) : CompletesTo s n (if c then x else .next (s.raise e)) := by
  cases c with
  | false => exact completesTo_raise s e n
  | true => exact hx

/-- ENC sends the trace of its encryption before the response. -/
theorem execEnc_completes (blk : Block) (s : State) : CompletesTo s 16 (execEnc blk s) :=
  completesTo_check (completesTo_respond (block_bytes_length _) (by simp) (by simp) (by simp) (by simp)
    (runEncrypt_out blk s) (traceOut_noResponse s.cfg blk s.rk))

/-- The block loop completes the command: OK after the last block, or SinkFailure at the first rejected write. -/
theorem cbcLoop_completes (ps : List Block) (s : State) : Completes s (cbcLoop ps s) 0 := by
  obtain ⟨-, -, -, hcfg, hin, hans⟩ := cbcLoop_keeps ps s
  obtain ⟨before, r, hout, hb, hr⟩ := cbcLoop_response ps s
  refine ⟨hin, hcfg, hans, before, r, hout, hb, ?_⟩
  rcases hr with ⟨rfl, herr⟩ | ⟨rfl, herr⟩
  · exact .inl ⟨[], rfl, rfl, herr⟩
  · exact .inr ⟨.sinkFailure, rfl, herr⟩

/-- CBCENC runs the block loop behind three checks. -/
theorem execCbcenc_completes (data : List Byte) (s : State) : CompletesTo s 0 (execCbcenc data s) :=
  completesTo_check (completesTo_check (completesTo_check ⟨_, rfl, cbcLoop_completes (plaintextBlocks data) s⟩))

/-- Every command completes, in every state, with as many result bytes on success as its format gives (R33, R35). -/
theorem exec_completes (i : Instr) (s : State) : CompletesTo s i.resultLength (exec i s) := by
  cases i with
  | stat | gfadd | gfmul | gfinv | sboxf | sboxi | rotw | subw | xorw | xorwc | bxor | strd
  | keyexp | rkld | stld | subb | shrow | mixc => exact completesTo_answer rfl rfl rfl rfl rfl rfl
  | gfpow | gfbit | wbyte | bword =>
    simp only [exec, execGfpow, execGfbit, execWbyte, execBword]
    split
    · exact completesTo_raise s _ _
    · exact completesTo_answer rfl rfl rfl rfl rfl rfl
  | rkrd | ark =>
    simp only [exec, execRkrd, execArk]
    split
    · exact completesTo_raise s _ _
    · exact completesTo_check (completesTo_answer rfl rfl rfl rfl rfl rfl)
  | cbciv => exact completesTo_check (completesTo_answer rfl rfl rfl rfl rfl rfl)
  | enc blk => exact execEnc_completes blk s
  | cbcenc data => exact execCbcenc_completes data s

/-- Settles O5: a rejected packet has the one response of its error; a command completes with one response. -/
theorem everyPacketOneResponse : Obligations.EveryPacketOneResponse := by
  intro s p rest h
  cases hd : decode s.cfg p with
  | error e =>
    exact ⟨_, [], [(errRow e).1], step_of_decode_error h hd, rfl, by simp [failed], by simp, .inr ⟨e, rfl⟩⟩
  | ok i =>
    obtain ⟨t, ht, hc⟩ := exec_completes i { s with cmdIn := rest }
    obtain ⟨before, r, hout, hb, hr⟩ := hc.response
    refine ⟨t, before, r, (step_of_decode_ok h hd).trans ht, hc.cmdIn, hout, hb, ?_⟩
    rcases hr with ⟨result, hr, hl, -⟩ | ⟨e, hr, -⟩
    · exact .inl ⟨i, result, rfl, hr, hl⟩
    · exact .inr ⟨e, hr⟩

end Sys2Proof.Machine
end

section
/-! SUPPORT. The decoder's two checks against the tables of the spec: the reserved opcodes (R37) and the payload length
of every format (R39, R113). Settles the statements on rejected packets. -/

namespace Sys2Proof

open Sys2Proof.Machine Sys2Proof.Safety

/-! ### The decoder, by the row of the opcode -/

theorem decode_of_assignedRow_none {cfg : Config} {op : Byte} {p : List Byte} (h : assignedRow cfg op = none) :
    decode cfg (op :: p) = .error .illegalCommand := by
  simp [decode, h]

theorem decode_of_wrong_length {cfg : Config} {op : Byte} {p : List Byte} {row : Format × (List Byte → Instr)}
    {n : Nat} (hrow : assignedRow cfg op = some row) (hn : row.1.length? = some n) (hp : p.length ≠ n) :
    decode cfg (op :: p) = .error .sizeMismatch := by
  simp [decode, hrow, Format.accepts, hn, hp]

/-! ### The opcode map and the tables of R37 and R113 -/

/-- Every opcode with a row is in the first column of R113, or is CBCENC's. -/
theorem opcode_mem_of_opcodeRow {op : Byte} {row : Format × (List Byte → Instr)} (h : opcodeRow op = some row) :
    op.toNat ∈ 0x71 :: fixedLengths.map Prod.fst := by
  unfold opcodeRow at h
  split at h
  case h_28 => cases h -- the reserved opcodes
  all_goals decide

/-- Of these opcodes only those of the chaining layer can be reserved, in a build without it (R37). -/
theorem chaining_of_reserved {cfg : Config} {op : Byte} (h : op.toNat ∈ 0x71 :: fixedLengths.map Prod.fst)
    (hr : Reserved cfg op) : cfg.chainingEn = false ∧ (op.toNat = 0x70 ∨ op.toNat = 0x71) := by
  simp only [fixedLengths, List.map_cons, List.map_nil, List.mem_cons, List.not_mem_nil, or_false] at h
  by_contra hn
  simp only [Reserved, hn, or_false] at hr
  omega

/-- A reserved opcode of a build has no row in it (R37). -/
theorem assignedRow_of_reserved {cfg : Config} {op : Byte} (h : Reserved cfg op) : assignedRow cfg op = none := by
  cases hrow : opcodeRow op with
  | none => simp [assignedRow, hrow]
  | some row =>
    obtain ⟨hcfg, hop⟩ := chaining_of_reserved (opcode_mem_of_opcodeRow hrow) h
    have hch : chainingOpcode op = true := by simpa [chainingOpcode, BitVec.toNat_eq] using hop
    simp [assignedRow, hcfg, hch]

/-- Every row of R113 is a row of the opcode map, with a format of that length. -/
theorem opcodeRow_of_fixedLengths :
    ∀ x ∈ fixedLengths, (opcodeRow (BitVec.ofNat 8 x.1)).bind (fun row => row.1.length?) = some x.2 := by
  decide

/-- Of the fixed-length commands only CBCIV is the chaining layer's. -/
theorem chainingOpcode_of_fixedLengths :
    ∀ x ∈ fixedLengths, chainingOpcode (BitVec.ofNat 8 x.1) = true → BitVec.ofNat 8 x.1 = 0x70 := by
  decide

/-- A fixed-length command that exists in the build has its row there, with a format of its length. -/
theorem assignedRow_of_fixedLengths {cfg : Config} {op : Byte} {n : Nat} (h : (op.toNat, n) ∈ fixedLengths)
    (hc : op = 0x70 → cfg.chainingEn = true) : ∃ row, assignedRow cfg op = some row ∧ row.1.length? = some n := by
  have hop : BitVec.ofNat 8 op.toNat = op := by simp
  have hrow := opcodeRow_of_fixedLengths _ h
  have hch := chainingOpcode_of_fixedLengths _ h
  simp only [hop] at hrow hch
  obtain ⟨row, hr, hn⟩ := Option.bind_eq_some_iff.mp hrow
  refine ⟨row, ?_, hn⟩
  unfold assignedRow
  rw [if_neg (by simpa using fun h' => hc (hch h')), hr]

/-- Settles O6: the decoder finds no row for a packet without an opcode or with a reserved one. -/
theorem reservedOpcodesIllegal : Obligations.ReservedOpcodesIllegal := fun _ _ =>
  ⟨fun h => step_of_decode_error h rfl,
    fun _ _ h hr => step_of_decode_error h (decode_of_assignedRow_none (assignedRow_of_reserved hr))⟩

/-- CBCENC takes a payload of every length, where the chaining layer exists (R39). -/
theorem decode_cbcenc {cfg : Config} (data : List Byte) (h : cfg.chainingEn = true) :
    decode cfg (0x71 :: data) = .ok (.cbcenc data) := by
  simp [decode, assignedRow, h, opcodeRow, Format.accepts, Format.length?]

/-- Settles O7: the row of a fixed-length command fixes the length its payload must have. -/
theorem wrongLengthSizeMismatch : Obligations.WrongLengthSizeMismatch := by
  refine ⟨fun s op n p rest hmem hc hp h => ?_, fun _ data h => decode_cbcenc data h⟩
  obtain ⟨row, hrow, hn⟩ := assignedRow_of_fixedLengths hmem hc
  exact step_of_decode_error h (decode_of_wrong_length hrow hn hp)

end Sys2Proof
end

section
/-! SUPPORT. The algebra of the field unit (R45 to R49): the multiplier is linear in its first operand, which gives the
ring laws; powers add their exponents; the 256th power of a byte is the byte. Settles the statements on GfAdd, GfPow and
GfInv. -/

namespace Sys2Proof.Machine

open Sys2Proof.Safety

/-- Settles O26: the laws are those of exclusive or on bit vectors. -/
theorem gfAddLaws : Obligations.GfAddLaws := fun a b c =>
  ⟨rfl, BitVec.xor_comm a b, BitVec.xor_assoc a b c, BitVec.xor_self, by simp [gfAdd],
    BitVec.xor_zero⟩

/-! ### The multiplier is linear in its first operand -/

/-- Multiplication by x is linear. -/
theorem gfShift_xor (a b : Byte) : gfShift (a ^^^ b) = gfShift a ^^^ gfShift b := by
  unfold gfShift
  rw [BitVec.getLsbD_xor, BitVec.shiftLeft_xor_distrib]
  cases a.getLsbD 7 <;> cases b.getLsbD 7
  case false.false => rfl
  case false.true => exact BitVec.xor_assoc _ _ _
  case true.false => simp; ac_rfl
  case true.true => simp [← BitVec.xor_assoc, BitVec.xor_comm _ 0x1B#8]

/-- The multiplier's iterations on a sum of two `(acc, t)` pairs are the sum of the iterations on each. -/
theorem foldl_gfMulStep_xor (b : Byte) (l : List Nat) (x y : Byte × Byte) :
    l.foldl (gfMulStep b) (x.1 ^^^ y.1, x.2 ^^^ y.2) =
      ((l.foldl (gfMulStep b) x).1 ^^^ (l.foldl (gfMulStep b) y).1,
        (l.foldl (gfMulStep b) x).2 ^^^ (l.foldl (gfMulStep b) y).2) := by
  induction l generalizing x y with
  | nil => rfl
  | cons i l ih =>
    have hstep : gfMulStep b (x.1 ^^^ y.1, x.2 ^^^ y.2) i =
        ((gfMulStep b x i).1 ^^^ (gfMulStep b y i).1, (gfMulStep b x i).2 ^^^ (gfMulStep b y i).2) := by
      unfold gfMulStep
      cases b.getLsbD i
      · simp [gfShift_xor]
      · simp [gfShift_xor]; ac_rfl
    rw [List.foldl_cons, hstep, ih, List.foldl_cons, List.foldl_cons]

/-- The product distributes over a sum in its first operand (R47). -/
theorem xor_gfMul (a a' b : Byte) : gfMul (a ^^^ a') b = gfMul a b ^^^ gfMul a' b := by
  have hfold := foldl_gfMulStep_xor b [0, 1, 2, 3, 4, 5, 6, 7] (0x00, a) (0x00, a')
  rw [BitVec.xor_self] at hfold
  exact congrArg Prod.fst hfold

/-- A linear map that commutes with multiplication by x commutes with every multiplication: the product is a sum of
shifts of its first operand. -/
theorem map_gfMul {f : Byte → Byte} (hxor : ∀ a b, f (a ^^^ b) = f a ^^^ f b)
    (hshift : ∀ t, f (gfShift t) = gfShift (f t)) (a b : Byte) : f (gfMul a b) = gfMul (f a) b := by
  have hzero : f 0x00 = 0x00 := by simpa using hxor 0x00 0x00
  have hstep : ∀ x i, gfMulStep b (Prod.map f f x) i = Prod.map f f (gfMulStep b x i) := by
    intro x i
    cases hb : b.getLsbD i <;> simp [gfMulStep, hb, hxor, hshift]
  have hfold := List.foldl_hom (l := [0, 1, 2, 3, 4, 5, 6, 7]) (init := (0x00, a)) (Prod.map f f) hstep
  rw [Prod.map_apply, hzero] at hfold
  exact (congrArg Prod.fst hfold).symm

/-- Shifting the first operand shifts the product. -/
theorem gfShift_gfMul (a b : Byte) : gfShift (gfMul a b) = gfMul (gfShift a) b :=
  map_gfMul gfShift_xor (fun _ => rfl) a b

/-! ### The ring laws of the product -/

/-- Two factors may be multiplied on in either order: multiplication by the second is linear. -/
theorem gfMul_right_comm (a b c : Byte) : gfMul (gfMul a b) c = gfMul (gfMul a c) b :=
  map_gfMul (f := fun t => gfMul t c) (fun x y => xor_gfMul x y c) (fun t => (gfShift_gfMul t c).symm) a b

/-- The accumulator collects the bits of the second operand when the first is 1. -/
theorem one_gfMul (b : Byte) : gfMul 0x01 b = b := by
  revert b
  decide +kernel

/-- The product is commutative (R47). -/
theorem gfMul_comm (a b : Byte) : gfMul a b = gfMul b a := by
  have h := gfMul_right_comm 0x01 a b
  rwa [one_gfMul, one_gfMul] at h

/-- The product is associative (R47). -/
theorem gfMul_assoc (a b c : Byte) : gfMul (gfMul a b) c = gfMul a (gfMul b c) := by
  rw [gfMul_comm a b, gfMul_right_comm, gfMul_comm]

theorem gfMul_one (a : Byte) : gfMul a 0x01 = a := by
  rw [gfMul_comm, one_gfMul]

theorem zero_gfMul (b : Byte) : gfMul 0x00 b = 0x00 := by
  simpa using xor_gfMul 0x00 0x00 b

theorem gfMul_zero (a : Byte) : gfMul a 0x00 = 0x00 := by
  rw [gfMul_comm, zero_gfMul]

/-! ### Powers -/

/-- All powers of 0 are 0. -/
theorem gfMulTimes_zero (m : Nat) : gfMulTimes 0 m = 0 := by
  cases m with
  | zero => rfl
  | succ m => exact gfMul_zero _

/-- Powers of one byte multiply by adding their exponents. -/
theorem gfMul_gfMulTimes (a : Byte) (m n : Nat) :
    gfMul (gfMulTimes a m) (gfMulTimes a n) = gfMulTimes a (m + n + 1) := by
  induction n with
  | zero => rfl
  | succ n ih => rw [gfMulTimes, ← gfMul_assoc, ih]; rfl

/-- The square of a byte. -/
def gfSquare (a : Byte) : Byte := gfMul a a

/-- `k` squarings give the power with exponent `2 ^ k`. -/
theorem iterate_gfSquare (a : Byte) (k : Nat) : gfSquare^[k] a = gfMulTimes a (2 ^ k - 1) := by
  induction k with
  | zero => rfl
  | succ k ih =>
    have hpos : 1 ≤ 2 ^ k := Nat.one_le_two_pow
    have hk : 2 ^ k - 1 + (2 ^ k - 1) + 1 = 2 ^ (k + 1) - 1 := by omega
    rw [Function.iterate_succ_apply', ih, gfSquare, gfMul_gfMulTimes, hk]

/-- The square of a sum is the sum of the squares: the mixed terms cancel. -/
theorem gfSquare_xor (a b : Byte) : gfSquare (a ^^^ b) = gfSquare a ^^^ gfSquare b := by
  have hexpand : gfSquare (a ^^^ b) = (gfSquare a ^^^ gfMul a b) ^^^ (gfMul a b ^^^ gfSquare b) := by
    rw [gfSquare, xor_gfMul, gfMul_comm a, xor_gfMul, gfMul_comm b (a ^^^ b), xor_gfMul, gfMul_comm b a]
    rfl
  rw [hexpand, BitVec.xor_assoc, ← BitVec.xor_assoc (gfMul a b), BitVec.xor_self, BitVec.zero_xor]

/-- The square of a product is the product of the squares. -/
theorem gfSquare_gfMul (a b : Byte) : gfSquare (gfMul a b) = gfMul (gfSquare a) (gfSquare b) := by
  rw [gfSquare, ← gfMul_assoc, gfMul_right_comm a b a, gfMul_assoc]
  rfl

/-- Multiplication by x is the product with 0x02. -/
theorem gfShift_eq_gfMul (t : Byte) : gfShift t = gfMul 0x02 t := by
  have h := gfShift_gfMul 0x01 t
  rwa [one_gfMul] at h

/-- Eight squarings, being linear and fixing 0x01 and 0x02, fix every byte. -/
theorem iterate_gfSquare_eight (a : Byte) : gfSquare^[8] a = a := by
  have hxor : ∀ b c, gfSquare^[8] (b ^^^ c) = gfSquare^[8] b ^^^ gfSquare^[8] c :=
    Function.Semiconj₂.iterate gfSquare_xor 8
  have hmul : ∀ b c, gfSquare^[8] (gfMul b c) = gfMul (gfSquare^[8] b) (gfSquare^[8] c) :=
    Function.Semiconj₂.iterate gfSquare_gfMul 8
  have hone : gfSquare^[8] 0x01 = 0x01 := by decide
  have htwo : gfSquare^[8] 0x02 = 0x02 := by decide
  have hshift : ∀ t, gfSquare^[8] (gfShift t) = gfShift (gfSquare^[8] t) := by
    intro t
    rw [gfShift_eq_gfMul, hmul, htwo, gfShift_eq_gfMul]
  have hmap := map_gfMul hxor hshift 0x01 a
  rwa [one_gfMul, hone, one_gfMul] at hmap

/-- The 256th power of a byte is the byte. -/
theorem gfMulTimes_255 (a : Byte) : gfMulTimes a 255 = a :=
  (iterate_gfSquare a 8).symm.trans (iterate_gfSquare_eight a)

/-! ### Inverses (R49) -/

/-- The table's entry for a byte other than 0 is an inverse of the byte. -/
theorem romRead_inverseRows_gfMul : ∀ a : Byte, a ≠ 0 → gfMul (romRead inverseRows a) a = 0x01 := by
  decide +kernel

/-- The 255th power of a byte other than 0 is 1: the 256th, divided by the byte. -/
theorem gfMulTimes_254 {a : Byte} (ha : a ≠ 0) : gfMulTimes a 254 = 0x01 := by
  have hinv : gfMul a (romRead inverseRows a) = 0x01 := by rw [gfMul_comm, romRead_inverseRows_gfMul a ha]
  calc gfMulTimes a 254
      = gfMul (gfMulTimes a 254) (gfMul a (romRead inverseRows a)) := by rw [hinv, gfMul_one]
    _ = gfMul (gfMulTimes a 255) (romRead inverseRows a) := (gfMul_assoc _ _ _).symm
    _ = 0x01 := by rw [gfMulTimes_255, hinv]

/-- A byte other than 0 times its 254th power is 1. -/
theorem gfMul_gfInv {a : Byte} (ha : a ≠ 0) : gfMul a (gfInv a) = 0x01 :=
  (gfMul_gfMulTimes a 0 253).trans (gfMulTimes_254 ha)

theorem gfInv_zero : gfInv 0x00 = 0x00 := gfMulTimes_zero 253

/-- A byte other than 0 has one inverse, the inverter's. -/
theorem gfInv_eq_of_gfMul_eq_one {a b : Byte} (ha : a ≠ 0) (h : gfMul b a = 0x01) : gfInv a = b := by
  calc gfInv a
      = gfMul (gfMul b a) (gfInv a) := by rw [h, one_gfMul]
    _ = b := by rw [gfMul_assoc, gfMul_gfInv ha, gfMul_one]

/-- The inverter computes the table. -/
theorem gfInv_eq_romRead (a : Byte) : gfInv a = romRead inverseRows a := by
  by_cases ha : a = 0
  · rw [ha]
    exact gfInv_zero
  · exact gfInv_eq_of_gfMul_eq_one ha (romRead_inverseRows_gfMul a ha)

/-- Only 0 has the inverse 0: the product of a byte with 0 is not 1. -/
theorem gfInv_ne_zero {a : Byte} (ha : a ≠ 0) : gfInv a ≠ 0 := by
  intro h
  have hone := gfMul_gfInv ha
  rw [h, gfMul_zero] at hone
  exact absurd hone (by decide)

/-- The inverter is its own inverse function. -/
@[simp] theorem gfInv_gfInv (a : Byte) : gfInv (gfInv a) = a := by
  by_cases ha : a = 0
  · rw [ha, gfInv_zero, gfInv_zero]
  · exact gfInv_eq_of_gfMul_eq_one (gfInv_ne_zero ha) (gfMul_gfInv ha)

/-! ### The statements on GfPow and GfInv -/

/-- Settles O29: the exponents of a product of powers add, and the 255th power of a byte other than 0 is 1. -/
theorem gfPowLaws : Obligations.GfPowLaws := by
  intro a n h
  obtain ⟨m, rfl⟩ := Nat.exists_eq_succ_of_ne_zero h
  refine ⟨rfl, rfl, rfl, gfMulTimes_zero m, fun ha => ⟨gfMulTimes_254 ha, ?_⟩⟩
  calc gfMulTimes a (m + 254 + 1)
      = gfMul (gfMulTimes a m) (gfMulTimes a 254) := (gfMul_gfMulTimes a m 254).symm
    _ = gfMulTimes a m := by rw [gfMulTimes_254 ha, gfMul_one]

/-- Settles O30: the inverter computes the table, and the table holds inverses. -/
theorem gfInvIsInverse : Obligations.GfInvIsInverse := fun a =>
  ⟨rfl, gfMul_gfInv, gfInv_zero, gfInv_eq_romRead 0x01, gfInv_gfInv a, gfInv_eq_romRead a⟩

end Sys2Proof.Machine
end

section
/-! SUPPORT. The commands of the field unit (R52 to R56): the one payload length each takes, the command its packet
decodes to, and its answer. Settles the statements on GFADD, GFMUL, GFINV, GFPOW and GFBIT. -/

namespace Sys2Proof.Machine

open Sys2Proof.Safety

/-- A fixed-length command outside the chaining layer takes the payload length of R113 and no other. -/
theorem onlyLength_of_fixedLengths {op : Byte} {n : Nat} (h : (op.toNat, n) ∈ fixedLengths) (hop : op ≠ 0x70) :
    OnlyLength op n := by
  intro s p hp
  obtain ⟨row, hrow, hn⟩ := assignedRow_of_fixedLengths (cfg := s.cfg) h (fun he => absurd he hop)
  exact runPacket_of_decode_error (decode_of_wrong_length hrow hn hp)

/-! ### GFADD, GFMUL, GFINV -/

/-- Settles O31: each has its row of the opcode map and answers without a check. -/
theorem fieldCommands : Obligations.FieldCommands :=
  ⟨⟨onlyLength_of_fixedLengths (by decide) (by decide), fun _ _ _ => ⟨rfl, rfl⟩⟩,
    ⟨onlyLength_of_fixedLengths (by decide) (by decide), fun _ _ _ => ⟨rfl, rfl⟩⟩,
    ⟨onlyLength_of_fixedLengths (by decide) (by decide), fun _ _ => ⟨rfl, rfl⟩⟩⟩

/-! ### GFPOW -/

theorem exec_gfpow_zero (a : Byte) (s : State) : exec (.gfpow a 0) s = .next (failed s .illegalCommand) :=
  congrArg Host.Outcome.next (raise_eq_failed s .illegalCommand)

theorem exec_gfpow_of_ne_zero (a : Byte) {n : Byte} (s : State) (h : n.toNat ≠ 0) :
    exec (.gfpow a n) s = .next (answered s [gfPow a n.toNat h]) :=
  dif_neg h

/-- Settles O32: the command's one check is on the exponent. -/
theorem powerCommand : Obligations.PowerCommand := by
  refine ⟨onlyLength_of_fixedLengths (by decide) (by decide), fun a n s => ⟨rfl, ?_, exec_gfpow_of_ne_zero a s⟩⟩
  rintro rfl
  exact exec_gfpow_zero a s

/-! ### GFBIT -/

/-- The bit accessor is a shift and a mask (R50). -/
theorem bitByte_gfBit (a : Byte) (k : Fin 8) : bitByte (gfBit a k) = (a >>> k.val) &&& 1 := by
  have hmask : (a >>> k.val) &&& 1#8 = (BitVec.ofBool (a.getLsbD k.val)).setWidth 8 := by
    rw [BitVec.and_one_eq_setWidth_ofBool_getLsbD, BitVec.getLsbD_ushiftRight, Nat.add_zero]
  refine Eq.trans ?_ hmask.symm
  unfold gfBit
  cases a.getLsbD k.val <;> rfl

theorem exec_gfbit_of_gt (a : Byte) {i : Byte} (s : State) (h : 7 < i.toNat) :
    exec (.gfbit a i) s = .next (failed s .invalidIndex) := by
  simp only [exec, execGfbit, indexOperand_none h, raise_eq_failed]

theorem exec_gfbit_of_le (a : Byte) {i : Byte} (s : State) (h : i.toNat ≤ 7) :
    exec (.gfbit a i) s = .next (answered s [(a >>> i.toNat) &&& 1]) := by
  simp only [exec, execGfbit, indexOperand_some (Nat.lt_succ_of_le h), respond_eq_answered, bitByte_gfBit]

/-- Settles O33: the command's one check is on the bit index. -/
theorem bitCommand : Obligations.BitCommand :=
  ⟨onlyLength_of_fixedLengths (by decide) (by decide), fun a _ s =>
    ⟨rfl, exec_gfbit_of_gt a s, exec_gfbit_of_le a s⟩⟩

end Sys2Proof.Machine
end

section
/-! SUPPORT. The S-box (41_sbox.md): the inverse affine transform undoes the affine transform bit by bit, so SboxI and
SboxF invert each other (R57 to R59), and the ROMs hold the values of the two functions (R60). Settles the statements on
the S-box and its commands. -/

namespace Sys2Proof.Machine

open Sys2Proof.Safety

/-! ### The affine transforms, bit by bit (R57, R58) -/

theorem bitByte_eq_setWidth (b : Bool) : bitByte b = (BitVec.ofBool b).setWidth 8 := by
  cases b <;> rfl

/-- A bit shifted to place `k` of a byte stands there and nowhere else. -/
theorem getLsbD_bitByte_shiftLeft (b : Bool) (k : Nat) {i : Nat} (hi : i < 8) :
    (bitByte b <<< k).getLsbD i = (b && decide (i = k)) := by
  rw [bitByte_eq_setWidth]
  simp only [BitVec.getLsbD_shiftLeft, BitVec.getLsbD_setWidth, BitVec.getLsbD_ofBool, hi]
  grind

theorem getLsbD_byteOfBits (f : Nat → Bool) {i : Nat} (hi : i < 8) : (byteOfBits f).getLsbD i = f i := by
  have h0 : bitByte (f 0) = bitByte (f 0) <<< 0 := (BitVec.shiftLeft_zero _).symm
  rw [byteOfBits, h0]
  simp only [BitVec.getLsbD_or, getLsbD_bitByte_shiftLeft _ _ hi]
  interval_cases i <;> simp

theorem getLsbD_affine (x : Byte) {i : Nat} (hi : i < 8) :
    (affine x).getLsbD i =
      (x.getLsbD i ^^ x.getLsbD ((i + 4) % 8) ^^ x.getLsbD ((i + 5) % 8) ^^ x.getLsbD ((i + 6) % 8) ^^
        x.getLsbD ((i + 7) % 8) ^^ (0x63#8).getLsbD i) :=
  getLsbD_byteOfBits _ hi

/-- Bit `i` of the result is a sum of three bits of `affine x`, in which every bit of `x` but bit `i` cancels. -/
theorem inverseAffine_affine (x : Byte) : inverseAffine (affine x) = x := by
  refine BitVec.eq_of_getLsbD_eq fun i hi => ?_
  rw [inverseAffine, getLsbD_byteOfBits _ hi]
  interval_cases i <;> simp only [getLsbD_affine, Nat.reduceLT, Nat.reduceAdd, Nat.reduceMod] <;>
    generalize x.getLsbD = bit <;> simp [Bool.xor_comm, Bool.xor_left_comm]

/-! ### The two functions invert each other (R59) -/

theorem sboxI_sboxF : Function.LeftInverse sboxI sboxF := fun x => by
  rw [sboxI, sboxF, inverseAffine_affine, gfInv_gfInv]

/-- The bytes are finite, so the left inverse is a right inverse. -/
theorem sboxF_sboxI : Function.RightInverse sboxI sboxF :=
  sboxI_sboxF.rightInverse_of_card_le le_rfl

/-! ### The ROMs (R60) -/

/-- The table `SBOX` is the affine transform of the table of inverses. -/
theorem sbox_eq_affine_romRead : ∀ x : Byte, sbox x = affine (romRead inverseRows x) := by
  decide +kernel

theorem sbox_eq_sboxF (x : Byte) : sbox x = sboxF x := by
  rw [sbox_eq_affine_romRead, ← gfInv_eq_romRead, sboxF]

theorem isbox_sbox : ∀ x : Byte, isbox (sbox x) = x := by
  decide +kernel

/-- The inverse of the table `SBOX` is the inverse of `SboxF`. -/
theorem isbox_eq_sboxI (x : Byte) : isbox x = sboxI x := by
  calc isbox x
      = isbox (sbox (sboxI x)) := by rw [sbox_eq_sboxF, sboxF_sboxI]
    _ = sboxI x := isbox_sbox (sboxI x)

theorem sbox_ne_self : ∀ x : Byte, sbox x ≠ x := by
  decide +kernel

theorem sbox_ne_complement : ∀ x : Byte, sbox x ≠ ~~~x := by
  decide +kernel

/-! ### The statements on the S-box -/

/-- Settles O34: the forward ROM is read off the table of inverses, the inverse ROM off the forward one. -/
theorem sboxTables : Obligations.SboxTables := fun x =>
  ⟨sbox_eq_sboxF x, isbox_eq_sboxI x, isbox_sbox x⟩

theorem sboxF_ne_self (x : Byte) : sboxF x ≠ x := sbox_eq_sboxF x ▸ sbox_ne_self x

/-- A fixed point of the inverse would be one of `SboxF`. -/
theorem sboxI_ne_self (x : Byte) : sboxI x ≠ x := fun h =>
  sboxF_ne_self x ((congrArg sboxF h.symm).trans (sboxF_sboxI x))

/-- Settles O35: each half of `SboxF` is invertible; fixed points and complements are ruled out entry by entry. -/
theorem sboxContract : Obligations.SboxContract := fun x _ =>
  ⟨sboxI_sboxF x, sboxF_sboxI x, fun h => sboxI_sboxF.injective h, sboxF_ne_self x, sboxI_ne_self x,
    sbox_eq_sboxF x ▸ sbox_ne_complement x⟩

/-- Settles O36: each command has its row of the opcode map and answers its ROM's byte without a check. -/
theorem sboxCommands : Obligations.SboxCommands :=
  ⟨⟨onlyLength_of_fixedLengths (by decide) (by decide), fun c _ => ⟨rfl, rfl, sbox_eq_sboxF c⟩⟩,
    ⟨onlyLength_of_fixedLengths (by decide) (by decide), fun c _ => ⟨rfl, rfl, isbox_eq_sboxI c⟩⟩⟩

end Sys2Proof.Machine
end

section
/-! SUPPORT. The Word and Block commands (42_word_block.md): the 32-bit constant by its bytes (R68, R74), the accessors
as positions of the byte sequence (R75, R76), and the exclusive or of a Block position by position (R70, R77). Settles
the statements on ROTW, SUBW, XORW, XORWC, WBYTE, BWORD and BXOR. -/

namespace Sys2Proof.Machine

open Sys2Proof.Safety

/-! ### ROTW, SUBW, XORW, XORWC -/

/-- Four bytes make a number below 2^32, so nothing of it is cut off (R74). -/
theorem leConst_toNat (w : Word) :
    (leConst w).toNat = w.b0.toNat + 256 * w.b1.toNat + 65536 * w.b2.toNat + 16777216 * w.b3.toNat := by
  rw [leConst, BitVec.toNat_ofNat]
  omega

/-- A byte of a 32-bit constant is a quotient of its number, cut to 8 bits. -/
theorem truncate_ushiftRight (c : BitVec 32) (n : Nat) :
    (c >>> n).truncate 8 = BitVec.ofNat 8 (c.toNat / 2 ^ n) := by
  rw [BitVec.truncate_eq_setWidth, ← BitVec.ofNat_toNat, BitVec.toNat_ushiftRight, Nat.shiftRight_eq_div_pow]

theorem constWord_eq_ofNat (c : BitVec 32) :
    constWord c = ⟨BitVec.ofNat 8 c.toNat, BitVec.ofNat 8 (c.toNat / 256), BitVec.ofNat 8 (c.toNat / 65536),
      BitVec.ofNat 8 (c.toNat / 16777216)⟩ := by
  simp only [constWord, truncate_ushiftRight]
  rfl

/-- XORWC with the number of a packet's bytes 4 to 7 is XORW with these bytes (R74). -/
theorem exec_xorwc_leConst (v w : Word) (s : State) : exec (.xorwc v (leConst w)) s = exec (.xorw v w) s := by
  simp only [exec, execXorwc, execXorw, xorConst, constWord_leConst]

theorem exec_xorwc (a0 a1 a2 a3 : Byte) (c : BitVec 32) (s : State) :
    exec (.xorwc ⟨a0, a1, a2, a3⟩ c) s =
      .next (answered s [a0 ^^^ BitVec.ofNat 8 c.toNat, a1 ^^^ BitVec.ofNat 8 (c.toNat / 256),
        a2 ^^^ BitVec.ofNat 8 (c.toNat / 65536), a3 ^^^ BitVec.ofNat 8 (c.toNat / 16777216)]) := by
  simp only [exec, execXorwc, xorConst, constWord_eq_ofNat]
  rfl

/-- Settles O37: each command has its row of the opcode map and answers without a check; the constant of XORWC is the
number of four bytes, and has these bytes. -/
theorem wordCommands : Obligations.WordCommands := by
  refine ⟨onlyLength_of_fixedLengths (by decide) (by decide), onlyLength_of_fixedLengths (by decide) (by decide),
    onlyLength_of_fixedLengths (by decide) (by decide), onlyLength_of_fixedLengths (by decide) (by decide),
    fun a0 a1 a2 a3 b0 b1 b2 b3 c s => ⟨⟨rfl, rfl⟩, ⟨rfl, rfl⟩, ⟨rfl, rfl⟩, ?packet, exec_xorwc a0 a1 a2 a3 c s⟩⟩
  case packet => exact ⟨leConst ⟨b0, b1, b2, b3⟩, leConst_toNat _, rfl, exec_xorwc_leConst _ _ s⟩

/-! ### WBYTE and BWORD -/

theorem wordByte_eq_getElem (w : Word) (k : Fin 4) : wordByte w k = w.bytes[k.val]'k.isLt := by
  fin_cases k <;> rfl

/-- Word `k` of a Block is its bytes `[4k .. 4k+3]` (R69). -/
theorem wordOf_bytes (b : Block) (k : Fin 4) : (wordOf b k).bytes = (b.bytes.drop (4 * k.val)).take 4 := by
  fin_cases k <;> rfl

theorem exec_wbyte_of_gt (w : Word) {i : Byte} (s : State) (h : 3 < i.toNat) :
    exec (.wbyte w i) s = .next (failed s .invalidIndex) := by
  simp only [exec, execWbyte, indexOperand_none h, raise_eq_failed]

theorem exec_wbyte_of_eq (w : Word) {i : Byte} (s : State) (k : Fin 4) (h : i.toNat = k.val) :
    exec (.wbyte w i) s = .next (answered s [w.bytes[k.val]'k.isLt]) := by
  have hk : indexOperand 4 i = some k := by simp [indexOperand, h]
  simp only [exec, execWbyte, hk, respond_eq_answered, wordByte_eq_getElem]

theorem exec_bword_of_gt (b : Block) {i : Byte} (s : State) (h : 3 < i.toNat) :
    exec (.bword b i) s = .next (failed s .invalidIndex) := by
  simp only [exec, execBword, indexOperand_none h, raise_eq_failed]

theorem exec_bword_of_le (b : Block) {i : Byte} (s : State) (h : i.toNat ≤ 3) :
    exec (.bword b i) s = .next (answered s ((b.bytes.drop (4 * i.toNat)).take 4)) := by
  simp only [exec, execBword, indexOperand_some (Nat.lt_succ_of_le h), respond_eq_answered, wordOf_bytes]

/-- Settles O38: the one check of either command is on the index. -/
theorem accessorCommands : Obligations.AccessorCommands :=
  ⟨⟨onlyLength_of_fixedLengths (by decide) (by decide), fun w _ s =>
      ⟨rfl, exec_wbyte_of_gt w s, exec_wbyte_of_eq w s⟩⟩,
    ⟨onlyLength_of_fixedLengths (by decide) (by decide), fun b _ s =>
      ⟨rfl, exec_bword_of_gt b s, exec_bword_of_le b s⟩⟩⟩

/-! ### BXOR -/

theorem xorWord_comm (v w : Word) : xorWord v w = xorWord w v := by
  simp only [xorWord, BitVec.xor_comm]

/-- The exclusive or of Blocks is symmetric in its operands (R70). -/
theorem blockXor_comm (b buf : Block) : blockXor b buf = blockXor buf b := by
  simp only [blockXor, xorWord_comm]

/-- Position by position the response is `buf[i] ^ B[i]` (R70). -/
theorem blockXor_bytes (b buf : Block) : (blockXor b buf).bytes = List.zipWith (· ^^^ ·) buf.bytes b.bytes := by
  rw [blockXor_comm]
  rfl

/-- Settles O39: the command has its row of the opcode map and answers without a check. -/
theorem blockXorCommand : Obligations.BlockXorCommand := by
  refine ⟨onlyLength_of_fixedLengths (by decide) (by decide), fun b buf s => ⟨rfl, ?_⟩⟩
  simp only [exec, execBxor, respond_eq_answered, blockXor_bytes]

end Sys2Proof.Machine
end

section
/-! SUPPORT. The key schedule (43_keyschedule.md): the round constant as a 32-bit number meets byte 0 of a Word only, so
each round of the expansion is the running XOR of R78; the round keys by their place in the payload (R81); the three
answers of RKRD (R82). Settles the statements on the key expansion and on KEYEXP, RKLD and RKRD. -/

namespace Sys2Proof.Machine

open Sys2Proof.Safety

/-! ### The key expansion -/

/-- A byte is the number of that byte and three zero bytes, least significant first (R20). -/
theorem leConst_byte (b : Byte) : leConst ⟨b, 0, 0, 0⟩ = b.zeroExtend 32 := by
  simp [leConst]

/-- Such a constant changes byte 0 of a Word only (R68). -/
theorem xorConst_zeroExtend (w : Word) (b : Byte) :
    xorConst w (b.zeroExtend 32) = ⟨w.b0 ^^^ b, w.b1, w.b2, w.b3⟩ := by
  simp [xorConst, ← leConst_byte, xorWord]

/-- Every round key after the first comes from the one before it (R78). -/
theorem roundKey_keyExpand_succ (key : Block) (r : Fin 10) :
    roundKey (keyExpand key) r.succ = nextRoundKey r.succ (roundKey (keyExpand key) r.castSucc) := by
  fin_cases r <;> rfl

/-- Settles O41: the Words of a round are the expansion's own once the round constant stands on byte 0. -/
theorem keyExpansionWords : Obligations.KeyExpansionWords := by
  refine fun key => ⟨rfl, fun r => ?_⟩
  rw [roundKey_keyExpand_succ]
  simp only [nextRoundKey, xorConst_zeroExtend, subWord, rotWord, and_self]

/-! ### KEYEXP and RKLD -/

/-- Settles O42: the command has its row of the opcode map and writes `RK` and `KV` without a check. -/
theorem keyExpandCommand : Obligations.KeyExpandCommand :=
  ⟨onlyLength_of_fixedLengths (by decide) (by decide), fun _ _ => ⟨rfl, rfl⟩⟩

/-- Reading past a Block's bytes is reading what follows them. -/
theorem blockAt_bytes_append (b : Block) (rest : List Byte) (off : Nat) :
    blockAt (b.bytes ++ rest) (off + 16) = blockAt rest off := rfl

/-- A schedule is read back from its own bytes (R81). -/
theorem scheduleAt_bytes (k : Schedule) : scheduleAt k.bytes = k := by
  have hlast : blockAt k.k10.bytes 0 = k.k10 := rfl
  simp only [scheduleAt, Schedule.bytes, List.append_assoc, blockAt_bytes_append, blockAt_bytes, hlast]

/-- Format S has round key `r` at `sched[16r .. 16r+15]` (R35). -/
theorem roundKey_scheduleAt (p : List Byte) (r : Fin 11) : roundKey (scheduleAt p) r = blockAt p (16 * r.val) := by
  fin_cases r <;> rfl

/-- Round key `r` is the schedule's bytes `[16r .. 16r+15]` (R19, R81). -/
theorem roundKey_bytes (k : Schedule) (r : Fin 11) :
    (roundKey k r).bytes = (k.bytes.drop (16 * r.val)).take 16 := by
  have hr : 16 * r.val + 16 ≤ k.bytes.length := by rw [schedule_bytes_length]; omega
  calc (roundKey k r).bytes
      = (roundKey (scheduleAt k.bytes) r).bytes := by rw [scheduleAt_bytes]
    _ = (blockAt k.bytes (16 * r.val)).bytes := by rw [roundKey_scheduleAt]
    _ = (k.bytes.drop (16 * r.val)).take 16 := blockAt_eq_take hr

theorem decode_rkld (cfg : Config) (k : Schedule) : decode cfg (0x41 :: k.bytes) = .ok (.rkld k) := by
  simp [decode, assignedRow, chainingOpcode, opcodeRow, Format.accepts, Format.length?, scheduleAt_bytes]

/-- Settles O43: the command has its row of the opcode map and writes `RK` and `KV` without a check; the places of the
round keys are those the decoder reads. -/
theorem roundKeyLoadCommand : Obligations.RoundKeyLoadCommand :=
  ⟨onlyLength_of_fixedLengths (by decide) (by decide), fun k s => ⟨decode_rkld s.cfg k, rfl, roundKey_bytes k⟩⟩

/-! ### RKRD -/

theorem exec_rkrd_of_gt {r : Byte} (s : State) (h : 10 < r.toNat) :
    exec (.rkrd r) s = .next (failed s .invalidIndex) := by
  simp only [exec, execRkrd, indexOperand_none h, raise_eq_failed]

theorem exec_rkrd_of_no_key {r : Byte} (s : State) (h : r.toNat ≤ 10) (hkv : s.kv = false) :
    exec (.rkrd r) s = .next (failed s .noKey) := by
  simp [exec, execRkrd, indexOperand_some (Nat.lt_succ_of_le h), hkv, raise_eq_failed]

theorem exec_rkrd_of_key {r : Byte} (s : State) (k : Fin 11) (h : r.toNat = k.val) (hkv : s.kv = true) :
    exec (.rkrd r) s = .next (answered s (roundKey s.rk k).bytes) := by
  have hk : indexOperand 11 r = some k := by simp [indexOperand, h]
  simp only [exec, execRkrd, hk, hkv, if_true, respond_eq_answered]

/-- Settles O44: the index is checked first, then the valid flag. -/
theorem roundKeyReadCommand : Obligations.RoundKeyReadCommand :=
  ⟨onlyLength_of_fixedLengths (by decide) (by decide), fun _ s =>
    ⟨rfl, exec_rkrd_of_gt s, exec_rkrd_of_no_key s, exec_rkrd_of_key s⟩⟩

end Sys2Proof.Machine
end

section
/-! SUPPORT. The round pipeline (44_round.md): Blocks by the index of a byte (R64, R83), each stage byte by byte and on
the external-order image (R84 to R88), and the commands on the state register (R89 to R94). Settles the statements on
the four stages and on STLD, STRD, ARK, SUBB, SHROW and MIXC. -/

namespace Sys2Proof.Machine

open Sys2Proof.Safety

/-! ### Blocks by index, row and column -/

/-- Index `4r + c` of a Block is row `r`, column `c` (R83). -/
theorem byteIndex_eq_byteOf (b : Block) (r c : Fin 4) : byteIndex b (4 * r.val + c.val) = byteOf b r c := by
  fin_cases r <;> fin_cases c <;> rfl

/-- An operation that acts on every byte alone, given by row and column, is the same operation index by index. -/
theorem byteIndex_map {a b : Block} {f : Byte → Byte} (h : ∀ r c, byteOf a r c = f (byteOf b r c)) (n : Fin 16) :
    byteIndex a n.val = f (byteIndex b n.val) := by
  have hr : n.val / 4 < 4 := Nat.div_lt_of_lt_mul n.isLt
  have hc : n.val % 4 < 4 := Nat.mod_lt _ (by decide)
  have hrc := h ⟨n.val / 4, hr⟩ ⟨n.val % 4, hc⟩
  rwa [← byteIndex_eq_byteOf, ← byteIndex_eq_byteOf, Nat.div_add_mod] at hrc

/-- Column `c` of a Block is at offsets `c, c+4, c+8, c+12` (R83). -/
theorem columnOf_eq_byteIndex (b : Block) (c : Fin 4) :
    columnOf b c =
      ⟨byteIndex b c.val, byteIndex b (c.val + 4), byteIndex b (c.val + 8), byteIndex b (c.val + 12)⟩ := by
  fin_cases c <;> rfl

/-- The Words of the external-order image are the columns of the state (R22). -/
theorem drain_eq_columns (st : Block) :
    drain st = ⟨columnOf st 0, columnOf st 1, columnOf st 2, columnOf st 3⟩ := rfl

@[simp] theorem byteOf_blockXor (a b : Block) (r c : Fin 4) :
    byteOf (blockXor a b) r c = byteOf a r c ^^^ byteOf b r c := by
  fin_cases r <;> fin_cases c <;> rfl

/-! ### The stages byte by byte -/

@[simp] theorem byteOf_addRoundKey (st k : Block) (r c : Fin 4) :
    byteOf (addRoundKey st k) r c = byteOf st r c ^^^ byteOf k c r :=
  byteOf_blockOf _ r c

@[simp] theorem byteOf_subBytes (st : Block) (r c : Fin 4) : byteOf (subBytes st) r c = sbox (byteOf st r c) :=
  byteOf_blockOf _ r c

@[simp] theorem byteOf_shiftRows (st : Block) (r c : Fin 4) : byteOf (shiftRows st) r c = byteOf st r (c + r) :=
  byteOf_blockOf _ r c

@[simp] theorem columnOf_mixColumns (st : Block) (c : Fin 4) :
    columnOf (mixColumns st) c = mixColumn (columnOf st c) := by
  simp only [columnOf, mixColumns, byteOf_blockOf]
  rfl

/-! ### AddRoundKey (R84) -/

theorem addRoundKey_eq_blockXor (st k : Block) : addRoundKey st k = blockXor st (fill k) :=
  block_ext fun r c => by simp

/-- On the external image AddRoundKey is the exclusive or, position by position (R88). -/
theorem drain_addRoundKey (st k : Block) : drain (addRoundKey st k) = blockXor (drain st) k :=
  block_ext fun r c => by simp

/-- Both applications meet a byte with the same key byte, which cancels. -/
theorem addRoundKey_addRoundKey (st k : Block) : addRoundKey (addRoundKey st k) k = st :=
  block_ext fun r c => by
    rw [byteOf_addRoundKey, byteOf_addRoundKey, BitVec.xor_assoc, BitVec.xor_self, BitVec.xor_zero]

/-! ### SubBytes (R85) -/

theorem byteIndex_subBytes (st : Block) (n : Fin 16) : byteIndex (subBytes st) n.val = sbox (byteIndex st n.val) :=
  byteIndex_map (byteOf_subBytes st) n

/-- SubBytes acts on every byte alone, so it does not see the order of the bytes (R88). -/
theorem drain_subBytes (st : Block) : drain (subBytes st) = subBytes (drain st) :=
  block_ext fun r c => by simp

/-! ### ShiftRows (R86) -/

theorem byteIndex_shiftRows (st : Block) (r c : Fin 4) :
    byteIndex (shiftRows st) (4 * r.val + c.val) = byteIndex st (4 * r.val + (c.val + r.val) % 4) := by
  rw [byteIndex_eq_byteOf, byteOf_shiftRows, ← byteIndex_eq_byteOf, Fin.val_add]

theorem shiftRows_eq_pick (st : Block) :
    shiftRows st = pick st [0, 1, 2, 3, 5, 6, 7, 4, 10, 11, 8, 9, 15, 12, 13, 14] := rfl

theorem shiftRows_eq_rotWord (st : Block) :
    shiftRows st = ⟨st.w0, rotWord st.w1, rotWord (rotWord st.w2), rotWord (rotWord (rotWord st.w3))⟩ := rfl

/-- The index list of R88 is that of R86 with the roles of row and column exchanged. -/
theorem drain_shiftRows (st : Block) :
    drain (shiftRows st) = pick (drain st) [0, 5, 10, 15, 4, 9, 14, 3, 8, 13, 2, 7, 12, 1, 6, 11] := rfl

/-- Four rotations by `r` places are a rotation by `4r`, which is none. -/
theorem shiftRows_four (st : Block) : shiftRows (shiftRows (shiftRows (shiftRows st))) = st := by
  have hturn : ∀ r c : Fin 4, c + r + r + r + r = c := by decide
  exact block_ext fun r c => by simp only [byteOf_shiftRows, hturn]

/-! ### MixColumns (R87) -/

theorem byteIndex_mixColumns (st : Block) (c : Fin 4) :
    (⟨byteIndex (mixColumns st) c.val, byteIndex (mixColumns st) (c.val + 4), byteIndex (mixColumns st) (c.val + 8),
        byteIndex (mixColumns st) (c.val + 12)⟩ : Word) =
      mixColumn
        ⟨byteIndex st c.val, byteIndex st (c.val + 4), byteIndex st (c.val + 8), byteIndex st (c.val + 12)⟩ := by
  rw [← columnOf_eq_byteIndex, ← columnOf_eq_byteIndex, columnOf_mixColumns]

/-- MixColumns works on the four consecutive Words of the external image (R88). -/
theorem drain_mixColumns (st : Block) :
    drain (mixColumns st) =
      ⟨mixColumn (drain st).w0, mixColumn (drain st).w1, mixColumn (drain st).w2, mixColumn (drain st).w3⟩ := by
  simp only [drain_eq_columns, columnOf_mixColumns]

/-- The coefficient 3 is the sum of 2 and 1 (R47). -/
theorem gfMul_three (v : Byte) : gfMul 3 v = gfMul 2 v ^^^ v := by
  calc gfMul 3 v
      = gfMul 2 v ^^^ gfMul 1 v := xor_gfMul 2 1 v
    _ = gfMul 2 v ^^^ v := by rw [one_gfMul]

/-- In every row of the matrix the four coefficients 1, 1, 2 and 3 add up to 1. -/
theorem mixColumn_replicate (v : Byte) : mixColumn ⟨v, v, v, v⟩ = ⟨v, v, v, v⟩ := by
  simp only [mixColumn, gfMul_three, Word.mk.injEq]
  grind

/-! ### The statements on the stages -/

/-- Settles O46: every stage is given by row and column, and a row and a column are an index. -/
theorem stagesByIndex : Obligations.StagesByIndex := by
  refine fun st k => ⟨fun r c => ?addRoundKey, addRoundKey_eq_blockXor st k, drain_addRoundKey st k,
    addRoundKey_addRoundKey st k, byteIndex_subBytes st, byteIndex_shiftRows st, shiftRows_eq_pick st,
    shiftRows_eq_rotWord st, fun c => ?mixColumns, shiftRows_four st, mixColumn_replicate⟩
  case addRoundKey => simp only [byteIndex_eq_byteOf, byteOf_addRoundKey]
  case mixColumns => simpa only [mixColumn, Word.mk.injEq] using byteIndex_mixColumns st c

/-- Settles O47: through Drain the columns of the state become Words, and its indices those of R88. -/
theorem stagesOnExternalImage : Obligations.StagesOnExternalImage := by
  refine fun st k => ⟨drain_addRoundKey st k, ?fill, fun n => ?subBytes, drain_shiftRows st, drain_mixColumns st⟩
  case fill => rw [blockXor_comm, ← drain_addRoundKey, fill_drain]
  case subBytes => rw [drain_subBytes, byteIndex_subBytes]

/-! ### STLD and STRD -/

/-- Settles O48: each command has its row of the opcode map and answers without a check. -/
theorem stateLoadAndRead : Obligations.StateLoadAndRead :=
  ⟨⟨onlyLength_of_fixedLengths (by decide) (by decide), fun _ _ => ⟨rfl, rfl⟩⟩,
    ⟨onlyLength_of_fixedLengths (by decide) (by decide), fun _ => ⟨rfl, rfl⟩⟩⟩

/-! ### ARK -/

theorem exec_ark_of_gt {r : Byte} (s : State) (h : 10 < r.toNat) :
    exec (.ark r) s = .next (failed s .invalidIndex) := by
  simp only [exec, execArk, indexOperand_none h, raise_eq_failed]

theorem exec_ark_of_no_key {r : Byte} (s : State) (h : r.toNat ≤ 10) (hkv : s.kv = false) :
    exec (.ark r) s = .next (failed s .noKey) := by
  simp [exec, execArk, indexOperand_some (Nat.lt_succ_of_le h), hkv, raise_eq_failed]

theorem exec_ark_of_key {r : Byte} (s : State) (k : Fin 11) (h : r.toNat = k.val) (hkv : s.kv = true) :
    exec (.ark r) s = .next { answered s [] with st := addRoundKey s.st (roundKey s.rk k) } := by
  have hk : indexOperand 11 r = some k := by simp [indexOperand, h]
  simp only [exec, execArk, hk, hkv, if_true, respond_eq_answered]
  rfl

/-- Settles O49: the index is checked first, then the valid flag. -/
theorem addRoundKeyCommand : Obligations.AddRoundKeyCommand :=
  ⟨onlyLength_of_fixedLengths (by decide) (by decide), fun _ s =>
    ⟨rfl, exec_ark_of_gt s, exec_ark_of_no_key s, exec_ark_of_key s⟩⟩

/-! ### SUBB, SHROW and MIXC -/

/-- Settles O50: each command has its row of the opcode map and applies its stage without a check. -/
theorem stageCommands : Obligations.StageCommands :=
  ⟨onlyLength_of_fixedLengths (by decide) (by decide), onlyLength_of_fixedLengths (by decide) (by decide),
    onlyLength_of_fixedLengths (by decide) (by decide), fun _ => ⟨⟨rfl, rfl⟩, ⟨rfl, rfl⟩, ⟨rfl, rfl⟩⟩⟩

end Sys2Proof.Machine
end

section
/-! SUPPORT. The command of the cipher core (R99): its check on the key, and its answer through the law of one
encryption on the registers. Settles the statement on ENC. -/

namespace Sys2Proof.Machine

open Sys2Proof.Safety

theorem exec_enc_of_no_key (blk : Block) (s : State) (hkv : s.kv = false) :
    exec (.enc blk) s = .next (failed s .noKey) := by
  simp only [exec, execEnc, hkv, Bool.false_eq_true, if_false, raise_eq_failed]

/-- ENC reads its answer off `ST`, where the image of the ciphertext stands; Drain undoes Fill (R22). -/
theorem exec_enc_of_key (blk : Block) (s : State) (hkv : s.kv = true) :
    exec (.enc blk) s = .next { s with
      st := fill (encrypt blk s.rk), rnd := 0,
      out := s.out ++ traceOut s.cfg blk s.rk ++ [.response (0x00 :: (encrypt blk s.rk).bytes)] } := by
  simp only [exec, execEnc, hkv, if_true, runEncrypt_eq, drain_fill, respond_eq_answered, answered]

/-- Settles O51: the command has its row of the opcode map, and its one check is on the valid flag. -/
theorem encryptCommand : Obligations.EncryptCommand :=
  ⟨onlyLength_of_fixedLengths (by decide) (by decide), fun blk s =>
    ⟨rfl, exec_enc_of_no_key blk s, exec_enc_of_key blk s⟩⟩

end Sys2Proof.Machine
end

section
/-! SUPPORT. The chaining layer (46_chaining.md): the padded stream fills whole blocks, which in order are its bytes
(R102, R103), and the command that sets the chaining value (R108). Settles the statements on the padding and on
CBCIV. -/

namespace Sys2Proof.Machine

open Sys2Proof.Safety

/-! ### The padded stream (R102, R103) -/

/-- The blocks go past the end of the data, by 16 bytes at most (R103). -/
theorem padCount_bounds (len : Nat) : 1 ≤ padCount len ∧ padCount len ≤ 16 := by
  simp only [padCount, blockCount]
  omega

/-- The padding fills the last block. -/
@[simp] theorem padded_length (data : List Byte) : (padded data).length = 16 * blockCount data.length := by
  simp only [padded, padCount, blockCount, List.length_append, List.length_replicate]
  omega

@[simp] theorem plaintextBlocks_length (data : List Byte) :
    (plaintextBlocks data).length = blockCount data.length := by
  simp [plaintextBlocks]

/-- The first `n` blocks of a payload that has as many hold its first `16n` bytes. -/
theorem flatMap_blockAt_bytes {p : List Byte} {n : Nat} (h : 16 * n ≤ p.length) :
    (List.range n).flatMap (fun i => (blockAt p (16 * i)).bytes) = p.take (16 * n) := by
  induction n with
  | zero => simp
  | succ n ih =>
    have hlast : (blockAt p (16 * n)).bytes = (p.drop (16 * n)).take 16 := blockAt_eq_take h
    rw [List.range_succ, List.flatMap_append, List.flatMap_singleton, ih (by omega), hlast, Nat.mul_succ, List.take_add]

/-- The plaintext blocks in order are the padded stream, nothing left over. -/
theorem plaintextBlocks_bytes (data : List Byte) : (plaintextBlocks data).flatMap Block.bytes = padded data := by
  have hfull : 16 * blockCount data.length = (padded data).length := (padded_length data).symm
  rw [plaintextBlocks, List.flatMap_map, flatMap_blockAt_bytes hfull.le, hfull, List.take_length]

/-- Settles O56: the padding completes the last block, so the blocks cut the padded stream without a rest. -/
theorem paddingOfStream : Obligations.PaddingOfStream := fun data =>
  have ⟨hpos, hle⟩ := padCount_bounds data.length
  ⟨hpos, hle, plaintextBlocks_length data, plaintextBlocks_bytes data⟩

/-! ### CBCIV (R108) -/

theorem decode_cbciv {cfg : Config} (iv : Block) (h : cfg.chainingEn = true) :
    decode cfg (0x70 :: iv.bytes) = .ok (.cbciv iv) := by
  have hiv : blockAt iv.bytes 0 = iv := rfl
  simp [decode, assignedRow, h, opcodeRow, Format.accepts, Format.length?, hiv]

theorem exec_cbciv_of_chainingEn (iv : Block) {s : State} (h : s.cfg.chainingEn = true) :
    exec (.cbciv iv) s = .next { answered s [] with cv := iv, cvv := true } :=
  if_pos h

/-- Where the chaining layer exists, CBCIV takes a payload of 16 bytes and no other (R39). -/
theorem runPacket_cbciv_of_wrong_length {s : State} {p : List Byte} (h : s.cfg.chainingEn = true)
    (hp : p.length ≠ 16) : runPacket (0x70 :: p) s = .next (failed s .sizeMismatch) := by
  obtain ⟨row, hrow, hn⟩ := assignedRow_of_fixedLengths (op := 0x70) (n := 16) (by decide) (fun _ => h)
  exact runPacket_of_decode_error (decode_of_wrong_length hrow hn hp)

/-- A reserved opcode is illegal with every payload (R37). -/
theorem runPacket_of_reserved {s : State} {op : Byte} (p : List Byte) (h : Reserved s.cfg op) :
    runPacket (op :: p) s = .next (failed s .illegalCommand) :=
  runPacket_of_decode_error (decode_of_assignedRow_none (assignedRow_of_reserved h))

/-- Without the chaining layer CBCIV's opcode is reserved (R37, R100). -/
theorem reserved_cbciv {cfg : Config} (h : cfg.chainingEn = false) : Reserved cfg 0x70 := by
  simp [Reserved, h]

/-- Settles O57: with the chaining layer the command has its row of the opcode map and writes `CV` and `CVV` without a
check on the key; without it the opcode is reserved. -/
theorem ivCommand : Obligations.IvCommand := fun _ =>
  ⟨fun h => ⟨fun iv => ⟨decode_cbciv iv h, exec_cbciv_of_chainingEn iv h⟩,
      fun _ hp => runPacket_cbciv_of_wrong_length h hp⟩,
    fun h p => runPacket_of_reserved p (reserved_cbciv h)⟩

end Sys2Proof.Machine
end

section
/-! SUPPORT. The checks of R115: the spec's tables of errors against the decoder (checks 1 and 2) and against the
command a packet decodes to (checks 3 to 6), and what a packet does that fails one or passes all. Settles the statements
on the order of the errors and on data bytes. -/

namespace Sys2Proof.Machine

open Sys2Proof.Safety

/-! ### Checks 1 and 2 are the decoder's -/

/-- The opcode map against the first column of R113: the same opcodes with the same lengths, but for CBCENC, which has
a row without a length. -/
theorem length?_opcodeRow :
    ∀ op : Byte, (opcodeRow op).map (fun row => row.1.length?) =
      if op = 0x71 then some none else (fixedLengths.lookup op.toNat).map some := by
  decide +kernel

/-- Check 1: an opcode is assigned in a build when it has a row there. -/
theorem opcodeAssigned_eq_isSome (cfg : Config) (op : Byte) :
    opcodeAssigned cfg op = (assignedRow cfg op).isSome := by
  obtain ⟨chainingEn, _⟩ := cfg
  by_cases hc : op = 0x70 ∨ op = 0x71
  · rcases hc with rfl | rfl <;> cases chainingEn <;> rfl
  · have hrow := congrArg Option.isSome (length?_opcodeRow op)
    simp_all [opcodeAssigned, assignedRow, chainingOpcode, BitVec.toNat_eq]

/-- Check 2: the payload fits when the row's format accepts its length. -/
theorem lengthFits_eq_accepts {op : Byte} {row : Format × (List Byte → Instr)} (h : opcodeRow op = some row)
    (p : List Byte) : lengthFits op p = row.1.accepts p.length := by
  have ht : some row.1.length? = _ := h ▸ length?_opcodeRow op
  split at ht
  case isTrue h71 =>
    have hn : fixedLengths.lookup op.toNat = none := h71 ▸ rfl
    simp only [lengthFits, Format.accepts, hn, Option.some.inj ht]
  case isFalse =>
    obtain ⟨n, hn, hl⟩ := Option.map_eq_some_iff.mp ht.symm
    simp only [lengthFits, Format.accepts, hn, ← hl]

theorem opcodeRow_of_assignedRow {cfg : Config} {op : Byte} {row : Format × (List Byte → Instr)}
    (h : assignedRow cfg op = some row) : opcodeRow op = some row := by
  unfold assignedRow at h
  split at h
  · cases h
  · exact h

/-- What the decoder can do: reject a packet that fails check 1 or 2, or read it by the row of its opcode. -/
theorem decode_cases (cfg : Config) (op : Byte) (p : List Byte) :
    (opcodeAssigned cfg op = false ∧ decode cfg (op :: p) = .error .illegalCommand) ∨
      (opcodeAssigned cfg op = true ∧ lengthFits op p = false ∧ decode cfg (op :: p) = .error .sizeMismatch) ∨
        (opcodeAssigned cfg op = true ∧ lengthFits op p = true ∧
          ∃ row, opcodeRow op = some row ∧ row.1.accepts p.length = true ∧ decode cfg (op :: p) = .ok (row.2 p)) := by
  rw [opcodeAssigned_eq_isSome]
  cases hrow : assignedRow cfg op with
  | none => exact .inl ⟨rfl, decode_of_assignedRow_none hrow⟩
  | some row =>
    have hop := opcodeRow_of_assignedRow hrow
    rw [lengthFits_eq_accepts hop]
    cases ha : row.1.accepts p.length with
    | false => exact .inr (.inl ⟨rfl, rfl, by simp [decode, hrow, ha]⟩)
    | true => exact .inr (.inr ⟨rfl, rfl, row, hop, ha, by simp [decode, hrow, ha]⟩)

/-! ### Checks 3 to 6 are the command's -/

/-- The operands the spec's tables find in a payload are those of the command read from it. -/
theorem operands_of_opcodeRow {op : Byte} {row : Format × (List Byte → Instr)} {p : List Byte}
    (h : opcodeRow op = some row) (hp : row.1.accepts p.length = true) :
    (row.2 p).opcode = op ∧ operandReserved op p = !(row.2 p).operandsAssigned ∧
      indexOutOfRange op p = !(row.2 p).indicesInRange := by
  unfold opcodeRow at h
  split at h
  case h_4 => -- GFPOW
    cases h
    obtain ⟨a, n, rfl⟩ := List.length_eq_two.mp (beq_iff_eq.mp hp)
    exact ⟨rfl, (Bool.not_not _).symm, rfl⟩
  case h_6 | h_13 | h_14 | h_18 | h_21 => -- GFBIT, WBYTE, BWORD, RKRD, ARK
    cases h
    refine ⟨rfl, rfl, ?_⟩
    simp [indexOutOfRange, Instr.indicesInRange, byteAt, ← decide_not]
  case h_28 => cases h -- the reserved opcodes
  all_goals cases h; exact ⟨rfl, rfl, rfl⟩

/-- Checks 3 to 6 on the command a packet decodes to, in the order of R115. -/
def commandError (s : State) (i : Instr) : Option Err :=
  if !i.operandsAssigned then some .illegalCommand
  else if !i.indicesInRange then some .invalidIndex
  else if readsKey i.opcode && !s.kv then some .noKey
  else if readsIv i.opcode && !s.cvv then some .noIv
  else none

/-- The first error of a packet is the decoder's, if it rejects the packet. -/
theorem firstError_of_decode_error {s : State} {p : List Byte} {e : Err} (h : decode s.cfg p = .error e) :
    firstError s p = some e := by
  cases p with
  | nil => cases h; rfl
  | cons op p =>
    obtain ⟨h1, hd⟩ | ⟨h1, h2, hd⟩ | ⟨-, -, row, -, -, hd⟩ := decode_cases s.cfg op p <;> rw [hd] at h <;> cases h
    · simp [firstError, h1]
    · simp [firstError, h1, h2]

/-- The first error of a packet is that of the command it decodes to, which exists in the build. -/
theorem firstError_of_decode_ok {s : State} {op : Byte} {p : List Byte} {i : Instr}
    (h : decode s.cfg (op :: p) = .ok i) :
    i.opcode = op ∧ opcodeAssigned s.cfg op = true ∧ firstError s (op :: p) = commandError s i := by
  obtain ⟨-, hd⟩ | ⟨-, -, hd⟩ | ⟨h1, h2, row, hrow, ha, hd⟩ := decode_cases s.cfg op p <;> rw [hd] at h <;> cases h
  obtain ⟨hop, h3, h4⟩ := operands_of_opcodeRow hrow ha
  exact ⟨hop, h1, by simp [firstError, commandError, h1, h2, h3, h4, hop]⟩

/-! ### A command that fails a check -/

theorem exec_of_reserved_operand {i : Instr} (s : State) (h : i.operandsAssigned = false) :
    exec i s = .next (failed s .illegalCommand) := by
  cases i with
  | gfpow a n =>
    obtain rfl : n = 0 := by simpa [Instr.operandsAssigned] using h
    exact exec_gfpow_zero a s
  | _ => cases h

theorem exec_of_index_out_of_range {i : Instr} (s : State) (h : i.indicesInRange = false) :
    exec i s = .next (failed s .invalidIndex) := by
  cases i with
  | gfbit a k => exact exec_gfbit_of_gt a s (not_le.mp (of_decide_eq_false h))
  | wbyte w k => exact exec_wbyte_of_gt w s (not_le.mp (of_decide_eq_false h))
  | bword b k => exact exec_bword_of_gt b s (not_le.mp (of_decide_eq_false h))
  | rkrd r => exact exec_rkrd_of_gt s (not_le.mp (of_decide_eq_false h))
  | ark r => exact exec_ark_of_gt s (not_le.mp (of_decide_eq_false h))
  | _ => cases h

theorem exec_cbcenc_of_no_key {s : State} (data : List Byte) (hc : s.cfg.chainingEn = true) (hkv : s.kv = false) :
    exec (.cbcenc data) s = .next (failed s .noKey) := by
  simp [exec, execCbcenc, hc, hkv, raise_eq_failed]

theorem exec_cbcenc_of_no_iv {s : State} (data : List Byte) (hc : s.cfg.chainingEn = true) (hkv : s.kv = true)
    (hcvv : s.cvv = false) : exec (.cbcenc data) s = .next (failed s .noIv) := by
  simp [exec, execCbcenc, hc, hkv, hcvv, raise_eq_failed]

theorem exec_cbcenc_of_key_of_iv {s : State} (data : List Byte) (hc : s.cfg.chainingEn = true) (hkv : s.kv = true)
    (hcvv : s.cvv = true) : exec (.cbcenc data) s = .next (cbcLoop (plaintextBlocks data) s) := by
  simp [exec, execCbcenc, hc, hkv, hcvv]

theorem exec_of_no_key {i : Instr} {s : State} (hc : opcodeAssigned s.cfg i.opcode = true)
    (hidx : i.indicesInRange = true) (hr : readsKey i.opcode = true) (hkv : s.kv = false) :
    exec i s = .next (failed s .noKey) := by
  cases i with
  | rkrd r => exact exec_rkrd_of_no_key s (of_decide_eq_true hidx) hkv
  | ark r => exact exec_ark_of_no_key s (of_decide_eq_true hidx) hkv
  | enc blk => exact exec_enc_of_no_key blk s hkv
  | cbcenc data => exact exec_cbcenc_of_no_key data hc hkv
  | _ => cases hr

/-- Only CBCENC reads `CV`, and it reads `RK` too. -/
theorem exec_of_no_iv {i : Instr} {s : State} (hc : opcodeAssigned s.cfg i.opcode = true)
    (hkey : readsKey i.opcode = true → s.kv = true) (hr : readsIv i.opcode = true) (hcvv : s.cvv = false) :
    exec i s = .next (failed s .noIv) := by
  cases i with
  | cbcenc data => exact exec_cbcenc_of_no_iv data hc (hkey rfl) hcvv
  | _ => cases hr

/-- A command that fails a check answers the error of the first it fails, and changes nothing else (R116). -/
theorem exec_of_commandError {i : Instr} {s : State} {e : Err} (hc : opcodeAssigned s.cfg i.opcode = true)
    (h : commandError s i = some e) : exec i s = .next (failed s e) := by
  simp only [commandError, Bool.not_eq_true', Bool.and_eq_true] at h
  split_ifs at h with h3 h4 h5 h6 <;> cases h
  · exact exec_of_reserved_operand s h3
  · exact exec_of_index_out_of_range s h4
  · obtain ⟨hr, hkv⟩ := h5
    exact exec_of_no_key hc (by simpa using h4) hr hkv
  · obtain ⟨hr, hcvv⟩ := h6
    exact exec_of_no_iv hc (by simpa using h5) hr hcvv

/-- A packet that fails a check is answered with the error of the first it fails, and changes nothing else (R116). -/
theorem runPacket_of_firstError {s : State} {p : List Byte} {e : Err} (h : firstError s p = some e) :
    runPacket p s = .next (failed s e) := by
  cases hd : decode s.cfg p with
  | error e' =>
    obtain rfl : e' = e := Option.some.inj ((firstError_of_decode_error hd).symm.trans h)
    exact runPacket_of_decode_error hd
  | ok i =>
    cases p with
    | nil => cases hd
    | cons op p =>
      obtain ⟨rfl, hc, hfirst⟩ := firstError_of_decode_ok hd
      exact (runPacket_of_decode_ok hd).trans (exec_of_commandError hc (hfirst ▸ h))

/-! ### A packet that passes them all -/

theorem commandError_eq_none {s : State} {i : Instr} (h : commandError s i = none) :
    i.operandsAssigned = true ∧ i.indicesInRange = true ∧ (readsKey i.opcode = true → s.kv = true) ∧
      (readsIv i.opcode = true → s.cvv = true) := by
  simp only [commandError] at h
  split_ifs at h
  simp_all

/-- The outcome is a next state, and the last output is a response with status OK. -/
def Succeeds (s : State) (x : Host.Outcome State Fault Refusal) : Prop :=
  ∃ t before result, x = .next t ∧ t.out = s.out ++ before ++ [.response (0x00 :: result)]

/-- A command that sends nothing before its response. -/
theorem succeeds_of_out {s t : State} {x : Host.Outcome State Fault Refusal} {result : List Byte} (hx : x = .next t)
    (hout : t.out = s.out ++ [.response (0x00 :: result)]) : Succeeds s x :=
  ⟨t, [], result, hx, by rw [List.append_nil, hout]⟩

/-- A command other than CBCENC that passes every check succeeds. -/
theorem exec_succeeds {i : Instr} {s : State} (hc : opcodeAssigned s.cfg i.opcode = true)
    (h : commandError s i = none) (hi : i.opcode ≠ 0x71) : Succeeds s (exec i s) := by
  obtain ⟨hop, hidx, hkey, -⟩ := commandError_eq_none h
  cases i with
  | gfpow a n =>
    have hn : n.toNat ≠ 0 := by simpa [Instr.operandsAssigned, BitVec.toNat_eq] using hop
    exact succeeds_of_out (exec_gfpow_of_ne_zero a s hn) rfl
  | gfbit a k => exact succeeds_of_out (exec_gfbit_of_le a s (of_decide_eq_true hidx)) rfl
  | wbyte w k =>
    exact succeeds_of_out (exec_wbyte_of_eq w s ⟨k.toNat, Nat.lt_succ_of_le (of_decide_eq_true hidx)⟩ rfl) rfl
  | bword b k => exact succeeds_of_out (exec_bword_of_le b s (of_decide_eq_true hidx)) rfl
  | rkrd r =>
    exact succeeds_of_out
      (exec_rkrd_of_key s ⟨r.toNat, Nat.lt_succ_of_le (of_decide_eq_true hidx)⟩ rfl (hkey rfl)) rfl
  | ark r =>
    exact succeeds_of_out
      (exec_ark_of_key s ⟨r.toNat, Nat.lt_succ_of_le (of_decide_eq_true hidx)⟩ rfl (hkey rfl)) rfl
  | enc blk => exact ⟨_, traceOut s.cfg blk s.rk, _, exec_enc_of_key blk s (hkey rfl), rfl⟩
  | cbciv iv => exact succeeds_of_out (exec_cbciv_of_chainingEn iv hc) rfl
  | cbcenc data => exact absurd rfl hi
  | _ => exact succeeds_of_out rfl rfl

theorem runPacket_succeeds {s : State} {op : Byte} {p : List Byte} (h : firstError s (op :: p) = none)
    (hop : op ≠ 0x71) : Succeeds s (runPacket (op :: p) s) := by
  cases hd : decode s.cfg (op :: p) with
  | error e => exact absurd ((firstError_of_decode_error hd).symm.trans h) (Option.some_ne_none e)
  | ok i =>
    obtain ⟨rfl, hc, hfirst⟩ := firstError_of_decode_ok hd
    rw [runPacket_of_decode_ok hd]
    exact exec_succeeds hc (hfirst ▸ h) hop

/-- CBCENC runs its block loop when every check before it has passed (check 7 of R115 is the loop's). -/
theorem runPacket_cbcenc {s : State} {data : List Byte} (h : firstError s (0x71 :: data) = none) :
    runPacket (0x71 :: data) s = .next (cbcLoop (plaintextBlocks data) s) := by
  have hc : s.cfg.chainingEn = true := by
    by_contra hn
    simp [firstError, opcodeAssigned, Bool.eq_false_of_not_eq_true hn] at h
  have hd := decode_cbcenc data hc
  obtain ⟨-, -, hfirst⟩ := firstError_of_decode_ok hd
  obtain ⟨-, -, hkey, hiv⟩ := commandError_eq_none (hfirst ▸ h)
  exact (runPacket_of_decode_ok hd).trans (exec_cbcenc_of_key_of_iv data hc (hkey rfl) (hiv rfl))

/-- Settles O12: the checks of the spec's tables are those of the decoder and of the command; a packet that passes them
is answered OK, unless the sink rejects a write of CBCENC's loop. -/
theorem errorsInPriorityOrder : Obligations.ErrorsInPriorityOrder := by
  intro s p rest hin
  rw [step_packet hin]
  have hfirst : firstError { s with cmdIn := rest } p = firstError s p := by cases p <;> rfl
  refine ⟨fun e h => runPacket_of_firstError (hfirst.trans h), fun h => ?_⟩
  rw [← hfirst] at h
  cases p with
  | nil => cases h
  | cons op p =>
    by_cases hop : op = 0x71
    · subst hop
      obtain ⟨before, r, hout, -, hr⟩ := cbcLoop_response (plaintextBlocks p) { s with cmdIn := rest }
      refine ⟨_, before, r, runPacket_cbcenc h, hout, ?_⟩
      rcases hr with ⟨rfl, -⟩ | ⟨rfl, -⟩
      · exact .inl rfl
      · exact .inr ⟨rfl, rfl⟩
    · obtain ⟨t, before, result, ht, hout⟩ := runPacket_succeeds h hop
      exact ⟨t, before, 0x00 :: result, ht, hout, .inl rfl⟩

/-! ### Data bytes (R114) -/

/-- The checks read of a payload its length and the command's index or count operand, where one stands. -/
theorem firstError_congr {s : State} {op : Byte} {p q : List Byte} (hlen : p.length = q.length)
    (hop : ∀ k, operandPosition op = some k → p[k]? = q[k]?) : firstError s (op :: p) = firstError s (op :: q) := by
  have hread (c k : Nat) (hk : operandPosition (BitVec.ofNat 8 c) = some k) (h : op.toNat = c) : p[k]? = q[k]? :=
    hop k (by rw [← hk, ← h, BitVec.ofNat_toNat, BitVec.setWidth_eq])
  have h2 : lengthFits op p = lengthFits op q := by simp only [lengthFits, hlen]
  have h3 : operandReserved op p = operandReserved op q := by
    have hgfpow := hread 0x12 1 rfl
    unfold operandReserved
    grind
  have h4 : indexOutOfRange op p = indexOutOfRange op q := by
    have hgfbit := hread 0x14 1 rfl
    have hwbyte := hread 0x34 4 rfl
    have hbword := hread 0x35 16 rfl
    have hrkrd := hread 0x42 0 rfl
    have hark := hread 0x52 0 rfl
    unfold indexOutOfRange
    grind
  simp only [firstError, h2, h3, h4]

/-- How the block loop ends is decided by the number of blocks and the answers of the sink, not by a byte of them. -/
theorem cbcLoop_response_congr {ps qs : List Block} {s t : State} (hlen : ps.length = qs.length)
    (hans : s.sinkAnswers = t.sinkAnswers) (hcount : s.sinkCount = t.sinkCount) :
    ∃ r, (cbcLoop ps s).out.getLast? = some (.response r) ∧ (cbcLoop qs t).out.getLast? = some (.response r) := by
  induction ps generalizing qs s t with
  | nil =>
    obtain rfl : qs = [] := List.length_eq_zero_iff.mp hlen.symm
    exact ⟨[0x00], by simp [cbcLoop], by simp [cbcLoop]⟩
  | cons p ps ih =>
    obtain ⟨q, qs, rfl⟩ := List.exists_cons_of_length_eq_add_one hlen.symm
    have hnext := nextAnswer_congr hans hcount
    cases hs : s.nextAnswer with
    | accept =>
      rw [cbcLoop_accept hs, cbcLoop_accept (hnext.symm.trans hs)]
      exact ih (Nat.succ.inj hlen) hans (congrArg (· + 1) hcount)
    | reject =>
      rw [cbcLoop_reject hs, cbcLoop_reject (hnext.symm.trans hs)]
      exact ⟨[0x03], by simp, by simp⟩

/-- Two outcomes are next states whose last outputs are responses with the same status. -/
def SameStatus (x y : Host.Outcome State Fault Refusal) : Prop :=
  ∃ t u r1 r2, x = .next t ∧ y = .next u ∧ t.out.getLast? = some (.response r1) ∧
    u.out.getLast? = some (.response r2) ∧ r1.head? = r2.head?

theorem Succeeds.sameStatus {s : State} {x y : Host.Outcome State Fault Refusal} (hx : Succeeds s x)
    (hy : Succeeds s y) : SameStatus x y := by
  obtain ⟨t, _, r1, ht, ho1⟩ := hx
  obtain ⟨u, _, r2, hu, ho2⟩ := hy
  exact ⟨t, u, 0x00 :: r1, 0x00 :: r2, ht, hu, by simp [ho1], by simp [ho2], rfl⟩

/-- Settles O13: two packets that agree on the length and on the operand fail the same check, or both pass; then both
succeed, or both are CBCENC and the sink ends both loops at the same block. -/
theorem dataNeverFails : Obligations.DataNeverFails := by
  intro s op p q hlen hop
  have hcongr := firstError_congr (s := s) hlen hop
  cases hp : firstError s (op :: p) with
  | some e =>
    exact ⟨_, _, _, _, runPacket_of_firstError hp, runPacket_of_firstError (hcongr ▸ hp),
      List.getLast?_concat, List.getLast?_concat, rfl⟩
  | none =>
    have hq : firstError s (op :: q) = none := hcongr ▸ hp
    by_cases h71 : op = 0x71
    · subst h71
      have hblocks : (plaintextBlocks p).length = (plaintextBlocks q).length := by simp [hlen]
      obtain ⟨r, hr1, hr2⟩ := cbcLoop_response_congr (s := s) (t := s) hblocks rfl rfl
      exact ⟨_, _, r, r, runPacket_cbcenc hp, runPacket_cbcenc hq, hr1, hr2, rfl⟩
    · exact (runPacket_succeeds hp h71).sameStatus (runPacket_succeeds hq h71)

end Sys2Proof.Machine
end

section
/-! SUPPORT. The zero Block byte by byte. Settles the statement on the values after reset (R122). -/

namespace Sys2Proof.Machine

open Sys2Proof.Safety

/-- The bytes of the zero Block, written as one list of sixteen. -/
theorem bytes_zero : Block.zero.bytes = List.replicate 16 0x00 := rfl

/-- Every byte of the zero Block is 0x00; past its end `byteIndex` reads its default, which is 0x00 too. -/
@[simp] theorem byteIndex_zero (n : Nat) : byteIndex Block.zero n = 0x00 := by
  rw [byteIndex, bytes_zero, List.getD_eq_getElem?_getD, List.getElem?_getD_replicate_default_eq]

/-- Settles O1: the state register is the zero Block after reset; every other value stands in the definition. -/
theorem resetValues : Obligations.ResetValues :=
  ⟨rfl, byteIndex_zero, rfl, rfl, rfl, rfl, rfl, rfl⟩

end Sys2Proof.Machine
end

section
/-! SUPPORT. Decoder and encoder against each other (R32, R35 to R37): the opcode map reads the payload the encoder
writes, and the encoder writes the payload the opcode map reads, so each undoes the other. Settles the statements on
decode and encode and on the opcode map. -/

namespace Sys2Proof

open Sys2Proof.Machine Sys2Proof.Safety

/-! ### Decode undoes encode -/

/-- The row of a command's opcode accepts the payload the encoder writes, and reads the command back from it. -/
theorem opcodeRow_opcode (i : Instr) :
    ∃ row, opcodeRow i.opcode = some row ∧ row.1.accepts i.payload.length = true ∧ row.2 i.payload = i := by
  cases i with
  | xorwc w c => exact ⟨_, rfl, rfl, congrArg (Instr.xorwc w) (leConst_constWord c)⟩
  | rkld k => exact ⟨_, rfl, beq_iff_eq.mpr (schedule_bytes_length k), congrArg Instr.rkld (scheduleAt_bytes k)⟩
  | _ => exact ⟨_, rfl, rfl, rfl⟩

/-- A command exists in a build unless its opcode is the chaining layer's and the layer is left out (R37). -/
theorem exists?_eq (cfg : Config) (i : Instr) :
    i.exists? cfg = !(chainingOpcode i.opcode && !cfg.chainingEn) := by
  cases i with
  | cbciv | cbcenc => exact (Bool.not_not _).symm
  | _ => rfl

theorem assignedRow_eq_some_iff {cfg : Config} {op : Byte} {row : Format × (List Byte → Instr)} :
    assignedRow cfg op = some row ↔ (chainingOpcode op && !cfg.chainingEn) = false ∧ opcodeRow op = some row := by
  unfold assignedRow
  split <;> simp_all

theorem decode_eq_ok_iff {cfg : Config} {op : Byte} {p : List Byte} {i : Instr} :
    decode cfg (op :: p) = .ok i ↔
      ∃ row, assignedRow cfg op = some row ∧ row.1.accepts p.length = true ∧ row.2 p = i := by
  cases hrow : assignedRow cfg op with
  | none => simp [decode, hrow]
  | some row => cases h : row.1.accepts p.length <;> simp [decode, hrow, h]

/-- Settles O9: the row of the opcode reads the payload back, and the build has the row. -/
theorem decodeOfEncode : Obligations.DecodeOfEncode := by
  intro cfg i hex
  obtain ⟨row, hrow, hlen, hread⟩ := opcodeRow_opcode i
  rw [exists?_eq, Bool.not_eq_true'] at hex
  exact decode_eq_ok_iff.mpr ⟨row, assignedRow_eq_some_iff.mpr ⟨hex, hrow⟩, hlen, hread⟩

/-! ### Encode undoes decode -/

theorem byteAt_of_length_one {p : List Byte} (h : p.length = 1) : [byteAt p 0] = p := by
  obtain ⟨a, rfl⟩ := List.length_eq_one_iff.mp h
  rfl

theorem byteAt_of_length_two {p : List Byte} (h : p.length = 2) : [byteAt p 0, byteAt p 1] = p := by
  obtain ⟨a, b, rfl⟩ := List.length_eq_two.mp h
  rfl

/-- The last byte of a payload, read at its offset, is what is left after the bytes before it. -/
theorem byteAt_eq_drop {p : List Byte} {off : Nat} (h : p.length = off + 1) : [byteAt p off] = p.drop off := by
  rw [List.drop_eq_getElem_cons (by omega), List.drop_eq_nil_of_le (by omega), byteAt, List.getD_eq_getElem]

/-- The last Word of a payload is what is left after the bytes before it. -/
theorem wordAt_eq_drop {p : List Byte} {off : Nat} (h : p.length = off + 4) :
    (wordAt p off).bytes = p.drop off := by
  rw [wordAt_eq_take h.ge, List.take_of_length_le (by simp; omega)]

/-- The last Block of a payload is what is left after the bytes before it. -/
theorem blockAt_eq_drop {p : List Byte} {off : Nat} (h : p.length = off + 16) :
    (blockAt p off).bytes = p.drop off := by
  rw [blockAt_eq_take h.ge, List.take_of_length_le (by simp; omega)]

/-- The first Word of a payload and the rest of it. -/
theorem wordAt_append_drop {p : List Byte} (h : 4 ≤ p.length) : (wordAt p 0).bytes ++ p.drop 4 = p := by
  rw [wordAt_eq_take (by omega)]
  exact List.take_append_drop 4 p

/-- The first Block of a payload and the rest of it. -/
theorem blockAt_append_drop {p : List Byte} (h : 16 ≤ p.length) : (blockAt p 0).bytes ++ p.drop 16 = p := by
  rw [blockAt_eq_take (by omega)]
  exact List.take_append_drop 16 p

/-- The eleven Blocks of format S are the whole payload. -/
theorem bytes_scheduleAt {p : List Byte} (h : p.length = 176) : (scheduleAt p).bytes = p := by
  calc (scheduleAt p).bytes
      = (List.range 11).flatMap (fun i => (blockAt p (16 * i)).bytes) := by
        simp [Schedule.bytes, scheduleAt, List.range_succ]
    _ = p.take 176 := flatMap_blockAt_bytes h.ge
    _ = p := List.take_of_length_le h.le

/-- A command read from a payload its row accepts has that payload: the fields of every format cover it. -/
theorem payload_of_opcodeRow {op : Byte} {row : Format × (List Byte → Instr)} {p : List Byte}
    (h : opcodeRow op = some row) (hp : row.1.accepts p.length = true) : (row.2 p).payload = p := by
  unfold opcodeRow at h
  split at h
  case h_1 | h_20 | h_22 | h_23 | h_24 => -- format Z
    cases h
    exact (List.length_eq_zero_iff.mp (beq_iff_eq.mp hp)).symm
  case h_5 | h_7 | h_8 | h_18 | h_21 => -- formats B1 and R1
    cases h
    exact byteAt_of_length_one (beq_iff_eq.mp hp)
  case h_2 | h_3 | h_4 | h_6 => -- format B2
    cases h
    exact byteAt_of_length_two (beq_iff_eq.mp hp)
  case h_9 | h_10 => -- format W
    cases h
    exact wordAt_eq_drop (off := 0) (beq_iff_eq.mp hp)
  case h_11 => -- XORW, format WW
    cases h
    have hlen : p.length = 8 := beq_iff_eq.mp hp
    simp only [Instr.payload, wordAt_eq_drop hlen]
    exact wordAt_append_drop (by omega)
  case h_12 => -- XORWC, format WW
    cases h
    have hlen : p.length = 8 := beq_iff_eq.mp hp
    simp only [Instr.payload, constWord_leConst, wordAt_eq_drop hlen]
    exact wordAt_append_drop (by omega)
  case h_13 => -- format WI
    cases h
    have hlen : p.length = 5 := beq_iff_eq.mp hp
    simp only [Instr.payload, byteAt_eq_drop hlen]
    exact wordAt_append_drop (by omega)
  case h_14 => -- format KI
    cases h
    have hlen : p.length = 17 := beq_iff_eq.mp hp
    simp only [Instr.payload, byteAt_eq_drop hlen]
    exact blockAt_append_drop (by omega)
  case h_15 => -- format KK
    cases h
    have hlen : p.length = 32 := beq_iff_eq.mp hp
    simp only [Instr.payload, blockAt_eq_drop hlen]
    exact blockAt_append_drop (by omega)
  case h_16 | h_19 | h_25 | h_26 => -- format K
    cases h
    exact blockAt_eq_drop (off := 0) (beq_iff_eq.mp hp)
  case h_17 => -- format S
    cases h
    exact bytes_scheduleAt (beq_iff_eq.mp hp)
  case h_27 => cases h; rfl -- format V
  case h_28 => cases h -- the reserved opcodes

/-- Settles O10: the command has the opcode and the payload it was read from, and its row is one of the build. -/
theorem encodeOfDecode : Obligations.EncodeOfDecode := by
  intro cfg p i h
  cases p with
  | nil => cases h
  | cons op p =>
    obtain ⟨row, hrow, hlen, rfl⟩ := decode_eq_ok_iff.mp h
    obtain ⟨hbuild, hop⟩ := assignedRow_eq_some_iff.mp hrow
    obtain ⟨hopcode, -, -⟩ := operands_of_opcodeRow hop hlen
    refine ⟨?_, ?_⟩
    · rw [encode, hopcode, payload_of_opcodeRow hop hlen]
    · rw [exists?_eq, hopcode, hbuild, Bool.not_false]

/-! ### The opcode map of the spec -/

/-- One command for every row of R36. -/
def sampleCommands : List Instr :=
  [.stat, .gfadd 0 0, .gfmul 0 0, .gfpow 0 0, .gfinv 0, .gfbit 0 0, .sboxf 0, .sboxi 0, .rotw .zero, .subw .zero,
    .xorw .zero .zero, .xorwc .zero 0, .wbyte .zero 0, .bword .zero 0, .bxor .zero .zero, .keyexp .zero, .rkld .zero,
    .rkrd 0, .stld .zero, .strd, .ark 0, .subb, .shrow, .mixc, .enc .zero, .cbciv .zero, .cbcenc []]

/-- The map's row of a command. -/
def mapRow (i : Instr) : Nat × List Char := (i.opcode.toNat, (asmParts i).1)

theorem opcodeMap_eq : opcodeMap = sampleCommands.map mapRow := by decide

/-- Every command has its row: the mnemonic does not depend on the operands. -/
theorem mapRow_mem (i : Instr) : mapRow i ∈ opcodeMap := by
  have hrow : opcodeMap.lookup i.opcode.toNat = some (asmParts i).1 := by cases i <;> rfl
  obtain ⟨before, after, hmap, -⟩ := List.lookup_eq_some_iff.mp hrow
  rw [hmap]
  exact List.mem_append_cons_self

/-- Settles O8: a packet decodes to a command of its opcode; the packet of a row is the encoding of its sample. -/
theorem opcodeMapSelectsCommand : Obligations.OpcodeMapSelectsCommand := by
  refine ⟨fun cfg op p i h => ?_, fun cfg op name hch h => ?_⟩
  · obtain ⟨henc, -⟩ := encodeOfDecode cfg _ i h
    obtain ⟨rfl, -⟩ := List.cons.inj henc
    exact mapRow_mem i
  · rw [opcodeMap_eq] at h
    obtain ⟨i, -, hi⟩ := List.mem_map.mp h
    obtain ⟨hop, rfl⟩ := Prod.mk.inj hi
    obtain rfl : i.opcode = op := BitVec.eq_of_toNat_eq hop
    exact ⟨i.payload, i, decodeOfEncode cfg i (by simp [exists?_eq, hch]), rfl⟩

/-- Settles O11: each packet has an opcode with a row whose format it fits. -/
theorem knownPacketsDecode : Obligations.KnownPacketsDecode := ⟨rfl, rfl, rfl, rfl, rfl, rfl⟩

end Sys2Proof
end

section
/-! SUPPORT. What a step does: it takes the next event from the port, runs its packet to the one response (R28, R33) or
resets the registers (R123), or waits. Settles the statements on steps, on reset, on `ERR` after a packet and on the
outputs. -/

namespace Sys2Proof.Machine

open Sys2Proof.Safety

/-! ### Packets -/

/-- Settles O2: the packet is taken from the port, then the decoder's answer decides. -/
theorem stepRunsDecodedCommand : Obligations.StepRunsDecodedCommand := fun _ _ _ h =>
  ⟨fun _ hi => step_of_decode_ok h hi, fun _ he => step_of_decode_error h he⟩

/-- Every packet completes: one the decoder rejects with its error, any other as its command does. -/
theorem runPacket_completes (p : List Byte) (s : State) : ∃ n, CompletesTo s n (runPacket p s) := by
  cases hd : decode s.cfg p with
  | error e => exact ⟨0, by simpa only [runPacket, hd] using completesTo_raise s e 0⟩
  | ok i => exact ⟨_, by simpa only [runPacket, hd] using exec_completes i s⟩

theorem completes_of_runPacket {p : List Byte} {s t : State} (h : runPacket p s = .next t) : ∃ n, Completes s t n := by
  obtain ⟨n, u, hu, hc⟩ := runPacket_completes p s
  obtain rfl : u = t := Host.Outcome.next.inj (hu.symm.trans h)
  exact ⟨n, hc⟩

theorem Completes.out_isPrefix {s t : State} {n : Nat} (h : Completes s t n) : s.out <+: t.out := by
  obtain ⟨before, r, hout, -, -⟩ := h.response
  exact ⟨before ++ [.response r], by rw [hout, List.append_assoc]⟩

theorem runPacket_out_isPrefix {p : List Byte} {s t : State} (h : runPacket p s = .next t) : s.out <+: t.out := by
  obtain ⟨n, hc⟩ := completes_of_runPacket h
  exact hc.out_isPrefix

/-- The mask of R112 is the one bit of R13. -/
theorem errRow_mask (e : Err) : (errRow e).2 = 1#8 <<< ((errRow e).1.toNat - 1) := by
  cases e <;> rfl

/-- Settles O14: a completed command has kept `ERR` with status OK, or added the bit of its error. -/
theorem errIsSticky : Obligations.ErrIsSticky := by
  intro s p rest hin
  obtain ⟨n, t, ht, hc⟩ := runPacket_completes p { s with cmdIn := rest }
  obtain ⟨before, r, hout, -, hr⟩ := hc.response
  refine ⟨t, r, (step_packet hin).trans ht, by simp [hout], ?_⟩
  rcases hr with ⟨result, rfl, -, herr⟩ | ⟨e, rfl, herr⟩
  · exact .inl ⟨rfl, herr⟩
  · exact .inr ⟨e, rfl, errRow_mask e ▸ herr⟩

/-! ### The four kinds of step -/

theorem step_wait {s : State} (h : s.cmdIn = []) : step s = .next s := by
  simp [step, takeEvent, h]

theorem step_reset {s : State} {rest : List HostEvent} (h : s.cmdIn = .reset :: rest) :
    step s = .next { s with cmdIn := rest }.resetRegisters := by
  simp [step, takeEvent, h, runEvent]

theorem step_resetDuring {s u : State} {p : List Byte} {writes traces : Nat} {rest : List HostEvent}
    (h : s.cmdIn = .resetDuring p writes traces :: rest) (hu : runPacket p { s with cmdIn := rest } = .next u) :
    step s = .next ({ s with cmdIn := rest }.abandon (u.out.drop s.out.length) writes traces) := by
  simp [step, takeEvent, h, runEvent, resetDuring, hu]

/-- The state a step ends in: the block has waited, run a packet, been reset, or been reset while it ran a packet. -/
inductive StepsTo (s : State) : State → Prop
  | wait : s.cmdIn = [] → StepsTo s s
  | packet {p rest t} : runPacket p { s with cmdIn := rest } = .next t → StepsTo s t
  | reset {rest} : StepsTo s { s with cmdIn := rest }.resetRegisters
  | resetDuring {p rest u} (writes traces : Nat) : runPacket p { s with cmdIn := rest } = .next u →
    StepsTo s ({ s with cmdIn := rest }.abandon (u.out.drop s.out.length) writes traces)

theorem exists_stepsTo (s : State) : ∃ t, step s = .next t ∧ StepsTo s t := by
  cases h : s.cmdIn with
  | nil => exact ⟨s, step_wait h, .wait h⟩
  | cons e rest =>
    cases e with
    | packet p =>
      obtain ⟨_, t, ht, -⟩ := runPacket_completes p { s with cmdIn := rest }
      exact ⟨t, (step_packet h).trans ht, .packet ht⟩
    | reset => exact ⟨_, step_reset h, .reset⟩
    | resetDuring p writes traces =>
      obtain ⟨_, u, hu, -⟩ := runPacket_completes p { s with cmdIn := rest }
      exact ⟨_, step_resetDuring h hu, .resetDuring writes traces hu⟩

theorem stepsTo_of_step {s t : State} (h : step s = .next t) : StepsTo s t := by
  obtain ⟨u, hu, hstep⟩ := exists_stepsTo s
  obtain rfl : u = t := Host.Outcome.next.inj (hu.symm.trans h)
  exact hstep

/-- Settles O4: a step waits, runs a packet, which completes, or resets. -/
theorem stepNeverStops : Obligations.StepNeverStops := fun s =>
  have ⟨t, ht, _⟩ := exists_stepsTo s
  ⟨t, ht⟩

/-! ### Reset (R123) -/

/-- Settles O3: a reset between commands leaves nothing new; one inside a command leaves the cut of what the command
sends, which ends with its only response. -/
theorem resetAtAnyTime : Obligations.ResetAtAnyTime := by
  intro s rest p writes traces hin
  rcases hin with h | h
  case inl =>
    refine ⟨_, [], step_reset h, rfl, byteIndex_zero, rfl, rfl, rfl, rfl, rfl, (List.append_nil _).symm, by simp, rfl,
      fun _ => rfl, fun u hin => ?_, fun hrest => step_wait hrest⟩
    cases h.symm.trans hin
  case inr =>
    obtain ⟨n, u, hu, hc⟩ := runPacket_completes p { s with cmdIn := rest }
    obtain ⟨before, r, hout, hbefore, -⟩ := hc.response
    have hnew : u.out.drop s.out.length = before ++ [.response r] := by
      rw [hout, List.append_assoc]; exact List.drop_left
    refine ⟨_, outputsBeforeReset writes traces (before ++ [.response r]), step_resetDuring h hu, rfl, byteIndex_zero,
      rfl, rfl, rfl, rfl, rfl, hnew ▸ rfl, outputsBeforeReset_noResponse _ _ _, hnew ▸ rfl, fun hin => ?_,
      fun v _ hv => ?_, fun hrest => step_wait hrest⟩
    · cases h.symm.trans hin
    · obtain rfl : u = v := Host.Outcome.next.inj (hu.symm.trans hv)
      rw [hnew]
      refine ⟨?_, countWrites_outputsBeforeReset writes traces before r hbefore⟩
      rw [hout, List.append_assoc]
      exact (List.prefix_append_right_inj _).mpr (hnew ▸ outputsBeforeReset_isPrefix writes traces _)

end Sys2Proof.Machine
end

section
/-! SUPPORT. The "written by" column of R6: which command can change which register, and how. Settles the statements on
the writers of the registers, on the pure commands, on what every step keeps, and on the invariant. -/

namespace Sys2Proof.Machine

open Sys2Proof.Safety

/-! ### What a command can do to the registers -/

/-- `ERR` is kept or has the bit of one error added, which without the chaining layer is not one of the layer's. -/
def ErrKeptOrAdded (s t : State) : Prop :=
  t.err = s.err ∨
    ∃ e, t.err = s.err ||| (errRow e).2 ∧ (s.cfg.chainingEn = false → e ≠ .noIv ∧ e ≠ .sinkFailure)

/-- Every register of `t` is that of `s`, unless the command `i` is one of its writers. -/
structure Writes (i : Instr) (s t : State) : Prop where
  keys : t.rk = s.rk ∧ t.kv = s.kv ∨ writesRk i = true ∧ t.kv = true
  st : t.st = s.st ∨ writesSt i = true
  rnd : t.rnd = s.rnd ∨ t.rnd = 0 ∧ ((∃ blk, i = .enc blk) ∨ ∃ data, i = .cbcenc data)
  cv : t.cv = s.cv ∨ (∃ iv, i = .cbciv iv) ∨ ∃ data, i = .cbcenc data
  cvv : t.cvv = s.cvv ∨ t.cvv = true ∧ s.cfg.chainingEn = true ∧ ∃ iv, i = .cbciv iv
  err : ErrKeptOrAdded s t
  sinkCount : s.sinkCount ≤ t.sinkCount

/-- The outcome is a next state that the command's writes lead to. -/
def WritesTo (i : Instr) (s : State) (x : Host.Outcome State Fault Refusal) : Prop := ∃ t, x = .next t ∧ Writes i s t

theorem errKeptOrAdded_raise {s : State} {e : Err}
    (he : s.cfg.chainingEn = false → e ≠ .noIv ∧ e ≠ .sinkFailure) : ErrKeptOrAdded s (s.raise e) :=
  .inr ⟨e, stickyErr_eq s.err e, he⟩

/-- Responding writes no register. -/
theorem writesTo_respond (i : Instr) (s : State) (l : List Byte) : WritesTo i s (.next (s.respond l)) :=
  ⟨_, rfl, .inl ⟨rfl, rfl⟩, .inl rfl, .inl rfl, .inl rfl, .inl rfl, .inl rfl, le_rfl⟩

/-- Raising an error writes `ERR` only. -/
theorem writesTo_raise (i : Instr) {s : State} {e : Err}
    (he : s.cfg.chainingEn = false → e ≠ .noIv ∧ e ≠ .sinkFailure) : WritesTo i s (.next (s.raise e)) :=
  ⟨_, rfl, .inl ⟨rfl, rfl⟩, .inl rfl, .inl rfl, .inl rfl, .inl rfl, errKeptOrAdded_raise he, le_rfl⟩

/-- A command that writes `ST` only. -/
theorem writesTo_setSt {i : Instr} (hi : writesSt i = true) (s : State) (b : Block) (l : List Byte) :
    WritesTo i s (.next ((s.setSt b).respond l)) :=
  ⟨_, rfl, .inl ⟨rfl, rfl⟩, .inr hi, .inl rfl, .inl rfl, .inl rfl, .inl rfl, le_rfl⟩

/-- A command that writes `RK` and `KV` only. -/
theorem writesTo_loadKeys {i : Instr} (hi : writesRk i = true) (s : State) (k : Schedule) (l : List Byte) :
    WritesTo i s (.next ((s.loadKeys k).respond l)) :=
  ⟨_, rfl, .inr ⟨hi, rfl⟩, .inl rfl, .inl rfl, .inl rfl, .inl rfl, .inl rfl, le_rfl⟩

/-- A command behind a check writes what it does when the check passes; otherwise it raises the check's error. -/
theorem writesTo_check {i : Instr} {s : State} {c : Bool} {e : Err} {x : Host.Outcome State Fault Refusal}
    (he : s.cfg.chainingEn = false → e ≠ .noIv ∧ e ≠ .sinkFailure) (hx : c = true → WritesTo i s x) :
    WritesTo i s (if c then x else .next (s.raise e)) := by
  cases c with
  | false => exact writesTo_raise i he
  | true => exact hx rfl

/-- The block loop keeps `RND` or leaves it at 0, and offers blocks to the sink. -/
theorem cbcLoop_rnd_sinkCount (ps : List Block) (s : State) :
    ((cbcLoop ps s).rnd = s.rnd ∨ (cbcLoop ps s).rnd = 0) ∧ s.sinkCount ≤ (cbcLoop ps s).sinkCount := by
  induction ps generalizing s with
  | nil => exact ⟨.inl rfl, le_rfl⟩
  | cons p rest ih =>
    cases h : s.nextAnswer with
    | accept =>
      rw [cbcLoop_accept h]
      obtain ⟨hrnd, hcount⟩ := ih _
      exact ⟨.inr (hrnd.elim id id), (Nat.le_succ _).trans hcount⟩
    | reject => rw [cbcLoop_reject h]; exact ⟨.inr rfl, Nat.le_succ _⟩

theorem writesTo_cbcenc (data : List Byte) (s : State) : WritesTo (.cbcenc data) s (execCbcenc data s) := by
  refine writesTo_check (by simp) fun hch => writesTo_check (by simp) fun _ =>
    writesTo_check (by simp [hch]) fun _ => ?_
  obtain ⟨hrk, hkv, hcvv, -, -, -⟩ := cbcLoop_keeps (plaintextBlocks data) s
  obtain ⟨hrnd, hcount⟩ := cbcLoop_rnd_sinkCount (plaintextBlocks data) s
  obtain ⟨_, _, -, -, hr⟩ := cbcLoop_response (plaintextBlocks data) s
  refine ⟨_, rfl, .inl ⟨hrk, hkv⟩, .inr rfl, hrnd.imp_right fun h => ⟨h, .inr ⟨data, rfl⟩⟩, .inr (.inr ⟨data, rfl⟩),
    .inl hcvv, ?_, hcount⟩
  rcases hr with ⟨-, herr⟩ | ⟨-, herr⟩
  · exact .inl herr
  · exact .inr ⟨.sinkFailure, herr, by simp [hch]⟩

/-- Every command writes its own registers and no other (R6). -/
theorem exec_writes (i : Instr) (s : State) : WritesTo i s (exec i s) := by
  cases i with
  | stat | gfadd | gfmul | gfinv | sboxf | sboxi | rotw | subw | xorw | xorwc | bxor | strd =>
    exact writesTo_respond _ s _
  | gfpow | gfbit | wbyte | bword =>
    simp only [exec, execGfpow, execGfbit, execWbyte, execBword]
    split
    · exact writesTo_raise _ (by simp)
    · exact writesTo_respond _ s _
  | keyexp | rkld => exact writesTo_loadKeys rfl s _ _
  | rkrd r =>
    simp only [exec, execRkrd]
    split
    · exact writesTo_raise _ (by simp)
    · exact writesTo_check (by simp) fun _ => writesTo_respond _ s _
  | ark r =>
    simp only [exec, execArk]
    split
    · exact writesTo_raise _ (by simp)
    · exact writesTo_check (by simp) fun _ => writesTo_setSt rfl s _ _
  | stld | subb | shrow | mixc => exact writesTo_setSt rfl s _ _
  | enc blk =>
    refine writesTo_check (by simp) fun _ => ⟨_, rfl, ?_⟩
    simp only [runEncrypt_eq]
    exact ⟨.inl ⟨rfl, rfl⟩, .inr rfl, .inr ⟨rfl, .inl ⟨blk, rfl⟩⟩, .inl rfl, .inl rfl, .inl rfl, le_rfl⟩
  | cbciv iv =>
    exact writesTo_check (by simp) fun hch =>
      ⟨_, rfl, .inl ⟨rfl, rfl⟩, .inl rfl, .inl rfl, .inr (.inl ⟨iv, rfl⟩), .inr ⟨rfl, hch, iv, rfl⟩, .inl rfl, le_rfl⟩
  | cbcenc data => exact writesTo_cbcenc data s

theorem writes_of_exec {i : Instr} {s t : State} (h : exec i s = .next t) : Writes i s t := by
  obtain ⟨u, hu, hw⟩ := exec_writes i s
  obtain rfl : u = t := Host.Outcome.next.inj (hu.symm.trans h)
  exact hw

/-! ### The writers of each register -/

/-- Settles O18: a command that is no writer keeps `RK` and `KV`; KEYEXP and RKLD load a whole schedule. -/
theorem roundKeyFileWrittenWhole : Obligations.RoundKeyFileWrittenWhole := by
  intro i s t h
  refine ⟨fun hi => ?_, ?_, ?_⟩
  · exact (writes_of_exec h).keys.resolve_right fun hw => by simp [hi] at hw
  · rintro key rfl
    cases h
    exact ⟨rfl, rfl⟩
  · rintro sched rfl
    cases h
    exact ⟨rfl, rfl⟩

/-- Settles O19: a writer of `KV` or `CVV` sets it, and any other command keeps it. -/
theorem validFlagsAndChainingValue : Obligations.ValidFlagsAndChainingValue := by
  intro i s t h
  have hw := writes_of_exec h
  refine ⟨fun hkv => ?_, fun hcvv => ?_, fun hkv => ?_, fun hcvv => ?_, fun hiv hcbc => ?_⟩
  · rcases hw.keys with ⟨-, h⟩ | ⟨-, h⟩
    exacts [h.trans hkv, h]
  · rcases hw.cvv with h | ⟨h, -⟩
    exacts [h.trans hcvv, h]
  · rcases hw.keys with ⟨-, h⟩ | ⟨hi, -⟩
    exacts [.inl (h.symm.trans hkv), .inr hi]
  · rcases hw.cvv with h | ⟨-, -, hi⟩
    exacts [.inl (h.symm.trans hcvv), .inr hi]
  · rcases hw.cv with h | ⟨iv, hi⟩ | ⟨data, hi⟩
    exacts [h, absurd hi (hiv iv), absurd hi (hcbc data)]

/-- Settles O20: a command that is no writer keeps `ST` and `RND`; the writers of `RND` leave it at 0. -/
theorem stateRegisterWriters : Obligations.StateRegisterWriters := by
  intro i s t h
  have hw := writes_of_exec h
  refine ⟨fun hi => hw.st.resolve_right (by simp [hi]), fun henc hcbc => ?_, fun h0 => ?_⟩
  · rcases hw.rnd with h | ⟨-, ⟨blk, hi⟩ | ⟨data, hi⟩⟩
    exacts [h, absurd hi (henc blk), absurd hi (hcbc data)]
  · rcases hw.rnd with h | ⟨h, -⟩
    exacts [h.trans h0, h]

/-- Settles O21: the answer of a pure command, or its error, is decided by its operands. -/
theorem pureCommandsTouchNoRegister : Obligations.PureCommandsTouchNoRegister := by
  intro i hi
  cases i with
  | gfadd | gfmul | gfinv | sboxf | sboxi | rotw | subw | xorw | xorwc | bxor => exact .inl ⟨_, fun _ => rfl⟩
  | gfpow | gfbit | wbyte | bword =>
    simp only [exec, execGfpow, execGfbit, execWbyte, execBword, raise_eq_failed, respond_eq_answered]
    split
    · exact .inr ⟨_, fun _ => rfl⟩
    · exact .inl ⟨_, fun _ => rfl⟩
  | _ => cases hi

/-! ### What every step keeps -/

theorem runPacket_sinkCount_le {p : List Byte} {s t : State} (h : runPacket p s = .next t) :
    s.sinkCount ≤ t.sinkCount := by
  unfold runPacket at h
  split at h
  · exact (writes_of_exec h).sinkCount
  · cases h; exact le_rfl

/-- Settles O22: a packet's command keeps the build and the sink's answers and only adds outputs; so does a reset. -/
theorem buildAndOutputsKept : Obligations.BuildAndOutputsKept := by
  intro s t h
  cases stepsTo_of_step h with
  | wait => exact ⟨rfl, rfl, le_rfl, List.prefix_rfl⟩
  | @packet p rest _ hp =>
    obtain ⟨n, hc⟩ := completes_of_runPacket hp
    exact ⟨hc.cfg, hc.sinkAnswers, runPacket_sinkCount_le (s := { s with cmdIn := rest }) hp, hc.out_isPrefix⟩
  | reset => exact ⟨rfl, rfl, le_rfl, List.prefix_rfl⟩
  | resetDuring => exact ⟨rfl, rfl, Nat.le_add_right _ _, List.prefix_append _ _⟩

/-! ### The invariant -/

/-- Settles O16: after reset `ERR` and `RND` are 0, and the build has the chaining layer. -/
theorem invariantAtReset : Obligations.InvariantAtReset := ⟨rfl, rfl, rfl, fun h => nomatch h⟩

/-- No error has a bit above 5, and bits 5 and 2 are those of the chaining layer's errors (R112). -/
theorem errRow_bits (e : Err) :
    (errRow e).2.getLsbD 7 = false ∧ (errRow e).2.getLsbD 6 = false ∧
      (e ≠ .noIv → (errRow e).2.getLsbD 5 = false) ∧ (e ≠ .sinkFailure → (errRow e).2.getLsbD 2 = false) := by
  cases e <;> decide

/-- A bit clear in `ERR` and in the mask is clear afterwards. -/
theorem getLsbD_or_false {a b : BitVec 8} {n : Nat} (ha : a.getLsbD n = false) (hb : b.getLsbD n = false) :
    (a ||| b).getLsbD n = false := by
  rw [BitVec.getLsbD_or, ha, hb, Bool.or_false]

/-- The invariant asks of a change that it adds only errors of the build, leaves `RND` at 0, and sets `CVV` only where
the chaining layer exists. -/
theorem inv_of_changes {s t : State} (hi : Inv s) (hcfg : t.cfg = s.cfg) (hrnd : t.rnd = s.rnd ∨ t.rnd = 0)
    (hcvv : t.cvv = s.cvv ∨ s.cfg.chainingEn = true) (herr : ErrKeptOrAdded s t) : Inv t := by
  have h0 : t.rnd = 0 := hrnd.elim (fun h => h.trans hi.idle) id
  have hcvv' : s.cfg.chainingEn = false → t.cvv = false := fun hch =>
    (hcvv.resolve_right (by simp [hch])).trans (hi.noChaining hch).1
  rcases herr with herr | ⟨e, herr, hch⟩
  · exact ⟨herr ▸ hi.reserved7, herr ▸ hi.reserved6, h0, fun hc =>
      ⟨hcvv' (hcfg ▸ hc), herr ▸ (hi.noChaining (hcfg ▸ hc)).2⟩⟩
  · obtain ⟨h7, h6, h5, h2⟩ := errRow_bits e
    refine ⟨herr ▸ getLsbD_or_false hi.reserved7 h7, herr ▸ getLsbD_or_false hi.reserved6 h6, h0, fun hc => ?_⟩
    rw [hcfg] at hc
    obtain ⟨-, hb5, hb2⟩ := hi.noChaining hc
    obtain ⟨hiv, hsink⟩ := hch hc
    exact ⟨hcvv' hc, herr ▸ getLsbD_or_false hb5 (h5 hiv), herr ▸ getLsbD_or_false hb2 (h2 hsink)⟩

/-- The decoder rejects a packet for its opcode or its length. -/
theorem decode_error_cases {cfg : Config} {p : List Byte} {e : Err} (h : decode cfg p = .error e) :
    e = .illegalCommand ∨ e = .sizeMismatch := by
  cases p with
  | nil => cases h; exact .inl rfl
  | cons op p =>
    obtain ⟨-, hd⟩ | ⟨-, -, hd⟩ | ⟨-, -, row, -, -, hd⟩ := decode_cases cfg op p <;> rw [hd] at h <;> cases h
    exacts [.inl rfl, .inr rfl]

theorem inv_runPacket {p : List Byte} {s t : State} (hi : Inv s) (h : runPacket p s = .next t) : Inv t := by
  obtain ⟨_, hc⟩ := completes_of_runPacket h
  cases hd : decode s.cfg p with
  | error e =>
    rw [runPacket_of_decode_error hd, ← raise_eq_failed] at h
    cases h
    refine inv_of_changes hi rfl (.inl rfl) (.inl rfl) (errKeptOrAdded_raise fun _ => ?_)
    rcases decode_error_cases hd with rfl | rfl <;> decide
  | ok i =>
    rw [runPacket_of_decode_ok hd] at h
    have hw := writes_of_exec h
    exact inv_of_changes hi hc.cfg (hw.rnd.imp_right And.left) (hw.cvv.imp_right fun h => h.2.1) hw.err

/-- Reset makes the invariant hold: `ERR`, `RND` and `CVV` are 0. -/
theorem inv_of_reset {t : State} (herr : t.err = 0x00) (hrnd : t.rnd = 0) (hcvv : t.cvv = false) : Inv t :=
  ⟨by rw [herr]; rfl, by rw [herr]; rfl, hrnd, fun _ => ⟨hcvv, by rw [herr]; exact ⟨rfl, rfl⟩⟩⟩

/-- Settles O17: a packet keeps the invariant, a reset makes it hold. -/
theorem invariantKeptByEveryStep : Obligations.InvariantKeptByEveryStep := by
  intro s t hi h
  cases stepsTo_of_step h with
  | wait => exact hi
  | @packet p rest _ hp =>
    exact inv_runPacket (s := { s with cmdIn := rest }) ⟨hi.reserved7, hi.reserved6, hi.idle, hi.noChaining⟩ hp
  | reset => exact inv_of_reset rfl rfl rfl
  | resetDuring => exact inv_of_reset rfl rfl rfl

end Sys2Proof.Machine
end

section
/-! SUPPORT. Noninterference. A relation between states that is kept by the shared operations of Machine/Ops.lean, and
whose states agree on what a command reads, is kept by every command; if reset keeps it too, it is kept by every step.
Settles the statements on what is not observable: `ERR` but by STAT (R13), `RK` while `KV` is 0 (R8), `CV` while `CVV`
is 0 (R10), and the trace (R98). -/

namespace Sys2Proof.Machine

open Sys2Proof.Safety

/-! ### Relations kept by every command and by every step -/

/-- Both outcomes are next states, and these are related. -/
def Related (R : State → State → Prop) (x y : Host.Outcome State Fault Refusal) : Prop :=
  ∃ t u, x = .next t ∧ y = .next u ∧ R t u

/-- The shared operations keep `R`, and related states agree on what commands other than STAT read: on the key and on
the chaining value only where they are valid. -/
structure ExecCongr (R : State → State → Prop) : Prop where
  respond {s t : State} (l : List Byte) : R s t → R (s.respond l) (t.respond l)
  raise {s t : State} (e : Err) : R s t → R (s.raise e) (t.raise e)
  loadKeys {s t : State} (k : Schedule) : R s t → R (s.loadKeys k) (t.loadKeys k)
  setSt {s t : State} (b : Block) : R s t → R (s.setSt b) (t.setSt b)
  loadIv {s t : State} (iv : Block) : R s t → R (s.loadIv iv) (t.loadIv iv)
  setCv {s t : State} (c : Block) : R s t → R (s.setCv c) (t.setCv c)
  sinkWrite {s t : State} (b : Block) : R s t → R (s.sinkWrite b) (t.sinkWrite b)
  runEncrypt {s t : State} (pt : Block) : R s t → s.kv = true → R (runEncrypt pt s) (runEncrypt pt t)
  kv {s t : State} : R s t → s.kv = t.kv
  cvv {s t : State} : R s t → s.cvv = t.cvv
  st {s t : State} : R s t → s.st = t.st
  chainingEn {s t : State} : R s t → s.cfg.chainingEn = t.cfg.chainingEn
  nextAnswer {s t : State} : R s t → s.nextAnswer = t.nextAnswer
  rk {s t : State} : R s t → s.kv = true → s.rk = t.rk
  cv {s t : State} : R s t → s.cvv = true → s.cv = t.cv

/-- Taking an event from the port and both kinds of reset keep `R` too, and related states agree on `ERR`. -/
structure StepCongr (R : State → State → Prop) : Prop extends ExecCongr R where
  err {s t : State} : R s t → s.err = t.err
  cmdIn {s t : State} : R s t → s.cmdIn = t.cmdIn
  take {s t : State} (rest : List HostEvent) : R s t → R { s with cmdIn := rest } { t with cmdIn := rest }
  resetRegisters {s t : State} : R s t → R s.resetRegisters t.resetRegisters
  abandon {s t s' t' : State} (writes traces : Nat) : R s t → R s' t' → s.out <+: s'.out →
    R (s.abandon (s'.out.drop s.out.length) writes traces) (t.abandon (t'.out.drop t.out.length) writes traces)

section

variable {R : State → State → Prop} {s t : State}

theorem ExecCongr.related_respond (hR : ExecCongr R) (h : R s t) {l m : List Byte} (hl : l = m) :
    Related R (.next (s.respond l)) (.next (t.respond m)) :=
  ⟨_, _, rfl, rfl, hl ▸ hR.respond l h⟩

theorem ExecCongr.related_raise (hR : ExecCongr R) (h : R s t) (e : Err) :
    Related R (.next (s.raise e)) (.next (t.raise e)) :=
  ⟨_, _, rfl, rfl, hR.raise e h⟩

/-- Two commands behind the same check are related if they are where the check passes. -/
theorem ExecCongr.related_check (hR : ExecCongr R) (h : R s t) {b c : Bool} (hc : b = c) (e : Err)
    {x y : Host.Outcome State Fault Refusal} (hxy : b = true → Related R x y) :
    Related R (if b then x else .next (s.raise e)) (if c then y else .next (t.raise e)) := by
  subst hc
  cases b with
  | false => exact hR.related_raise h e
  | true => exact hxy rfl

theorem ExecCongr.execEnc (hR : ExecCongr R) (h : R s t) (blk : Block) :
    Related R (execEnc blk s) (execEnc blk t) := by
  refine hR.related_check h (hR.kv h) .noKey fun hkv => ?_
  have hrun := hR.runEncrypt blk h hkv
  exact hR.related_respond hrun (by rw [hR.st hrun])

/-- The block loop reads the key and the chaining value, which are valid when it runs. -/
theorem ExecCongr.cbcLoop (hR : ExecCongr R) (ps : List Block) (h : R s t) (hkv : s.kv = true) (hcvv : s.cvv = true) :
    R (cbcLoop ps s) (cbcLoop ps t) := by
  induction ps generalizing s t with
  | nil => exact hR.respond [] h
  | cons p rest ih =>
    have hrun := hR.runEncrypt (blockXor s.cv p) h hkv
    have hwrite := hR.sinkWrite (drain (Machine.runEncrypt (blockXor s.cv p) s).st) hrun
    simp only [Machine.cbcLoop, ← hR.cv h hcvv, ← hR.st hrun, ← hR.nextAnswer hrun]
    split
    · exact ih (hR.setCv _ hwrite) (by simpa using hkv) (by simpa using hcvv)
    · exact hR.raise .sinkFailure hwrite

theorem ExecCongr.execCbcenc (hR : ExecCongr R) (h : R s t) (data : List Byte) :
    Related R (execCbcenc data s) (execCbcenc data t) :=
  hR.related_check h (hR.chainingEn h) .illegalCommand fun _ =>
    hR.related_check h (hR.kv h) .noKey fun hkv =>
      hR.related_check h (hR.cvv h) .noIv fun hcvv => ⟨_, _, rfl, rfl, hR.cbcLoop (plaintextBlocks data) h hkv hcvv⟩

/-- A command keeps the relation. -/
theorem ExecCongr.exec (hR : ExecCongr R) (h : R s t) {i : Instr} (herr : i = .stat → s.err = t.err) :
    Related R (exec i s) (exec i t) := by
  cases i with
  | stat =>
    exact hR.related_respond h (by rw [statusView, statusView, hR.kv h, hR.cvv h, hR.chainingEn h, herr rfl])
  | gfadd | gfmul | gfinv | sboxf | sboxi | rotw | subw | xorw | xorwc | bxor => exact hR.related_respond h rfl
  | gfpow | gfbit | wbyte | bword =>
    simp only [Machine.exec, execGfpow, execGfbit, execWbyte, execBword]
    split
    · exact hR.related_raise h _
    · exact hR.related_respond h rfl
  | keyexp key => exact hR.related_respond (hR.loadKeys (keyExpand key) h) rfl
  | rkld k => exact hR.related_respond (hR.loadKeys k h) rfl
  | rkrd r =>
    simp only [Machine.exec, execRkrd]
    split
    · exact hR.related_raise h _
    · exact hR.related_check h (hR.kv h) .noKey fun hkv => hR.related_respond h (by rw [hR.rk h hkv])
  | ark r =>
    simp only [Machine.exec, execArk]
    split
    · exact hR.related_raise h _
    · refine hR.related_check h (hR.kv h) .noKey fun hkv => ?_
      rw [← hR.rk h hkv, ← hR.st h]
      exact hR.related_respond (hR.setSt _ h) rfl
  | stld blk => exact hR.related_respond (hR.setSt (fill blk) h) rfl
  | strd => exact hR.related_respond h (by rw [hR.st h])
  | subb => simpa only [Machine.exec, execSubb, hR.st h] using hR.related_respond (hR.setSt (subBytes t.st) h) rfl
  | shrow => simpa only [Machine.exec, execShrow, hR.st h] using hR.related_respond (hR.setSt (shiftRows t.st) h) rfl
  | mixc => simpa only [Machine.exec, execMixc, hR.st h] using hR.related_respond (hR.setSt (mixColumns t.st) h) rfl
  | enc blk => exact hR.execEnc h blk
  | cbciv iv =>
    exact hR.related_check h (hR.chainingEn h) .illegalCommand fun _ => hR.related_respond (hR.loadIv iv h) rfl
  | cbcenc data => exact hR.execCbcenc h data

/-- Of the build the decoder reads the parameter of the chaining layer only (R37). -/
theorem decode_congr {c d : Config} (h : c.chainingEn = d.chainingEn) (p : List Byte) : decode c p = decode d p := by
  simp only [decode, assignedRow, h]

theorem StepCongr.runPacket (hR : StepCongr R) (h : R s t) (p : List Byte) :
    Related R (runPacket p s) (runPacket p t) := by
  unfold Machine.runPacket
  rw [decode_congr (hR.chainingEn h)]
  split
  · exact hR.exec h fun _ => hR.err h
  · exact hR.related_raise h _

/-- A step keeps the relation. -/
theorem StepCongr.step (hR : StepCongr R) (h : R s t) : Related R (step s) (step t) := by
  simp only [Machine.step, takeEvent, ← hR.cmdIn h]
  split
  case h_1 => exact ⟨s, t, rfl, rfl, h⟩
  case h_2 e rest _ =>
    have htake := hR.take rest h
    cases e with
    | packet p => exact hR.runPacket htake p
    | reset => exact ⟨_, _, rfl, rfl, hR.resetRegisters htake⟩
    | resetDuring p writes traces =>
      obtain ⟨s', t', hs, ht, h'⟩ := hR.runPacket htake p
      simp only [runEvent, resetDuring, hs, ht]
      exact ⟨_, _, rfl, rfl, hR.abandon writes traces htake h' (runPacket_out_isPrefix hs)⟩

end

/-! ### `ERR` (R13) -/

/-- The states differ at most in `ERR`. -/
def SameButErr (s t : State) : Prop := ∃ e, t = { s with err := e }

/-- No shared operation reads `ERR`; raising an error adds its bit to either value. -/
theorem execCongr_sameButErr : ExecCongr SameButErr where
  respond := by rintro s _ l ⟨e, rfl⟩; exact ⟨e, rfl⟩
  raise := by rintro s _ e' ⟨e, rfl⟩; exact ⟨stickyErr e e', rfl⟩
  loadKeys := by rintro s _ k ⟨e, rfl⟩; exact ⟨e, rfl⟩
  setSt := by rintro s _ b ⟨e, rfl⟩; exact ⟨e, rfl⟩
  loadIv := by rintro s _ iv ⟨e, rfl⟩; exact ⟨e, rfl⟩
  setCv := by rintro s _ c ⟨e, rfl⟩; exact ⟨e, rfl⟩
  sinkWrite := by rintro s _ b ⟨e, rfl⟩; exact ⟨e, rfl⟩
  runEncrypt := by rintro s _ pt ⟨e, rfl⟩ -; exact ⟨e, by simp only [runEncrypt_eq]⟩
  kv := by rintro s _ ⟨e, rfl⟩; rfl
  cvv := by rintro s _ ⟨e, rfl⟩; rfl
  st := by rintro s _ ⟨e, rfl⟩; rfl
  chainingEn := by rintro s _ ⟨e, rfl⟩; rfl
  nextAnswer := by rintro s _ ⟨e, rfl⟩; rfl
  rk := by rintro s _ ⟨e, rfl⟩ -; rfl
  cv := by rintro s _ ⟨e, rfl⟩ -; rfl

/-- Settles O15: STAT alone reads `ERR`, and no shared operation does. -/
theorem errReadByStatOnly : Obligations.ErrReadByStatOnly := by
  intro i s e hi
  obtain ⟨t, u, ht, hu, e', rfl⟩ := execCongr_sameButErr.exec ⟨e, rfl⟩ fun h => absurd h hi
  exact ⟨t, _, ht, hu, rfl⟩

/-! ### `RK` while `KV` is 0 (R8) -/

/-- The states are the same, or no key is loaded and they differ at most in `RK`. -/
def SameButUnloadedRk (s t : State) : Prop := t = s ∨ s.kv = false ∧ ∃ k, t = { s with rk := k }

/-- Loading a schedule and both resets make the states equal; an encryption runs only where they are equal already. -/
theorem stepCongr_sameButUnloadedRk : StepCongr SameButUnloadedRk where
  respond := by rintro s _ l (rfl | ⟨h, k, rfl⟩); exacts [.inl rfl, .inr ⟨h, k, rfl⟩]
  raise := by rintro s _ e (rfl | ⟨h, k, rfl⟩); exacts [.inl rfl, .inr ⟨h, k, rfl⟩]
  loadKeys := by rintro s _ k' (rfl | ⟨h, k, rfl⟩) <;> exact .inl rfl
  setSt := by rintro s _ b (rfl | ⟨h, k, rfl⟩); exacts [.inl rfl, .inr ⟨h, k, rfl⟩]
  loadIv := by rintro s _ iv (rfl | ⟨h, k, rfl⟩); exacts [.inl rfl, .inr ⟨h, k, rfl⟩]
  setCv := by rintro s _ c (rfl | ⟨h, k, rfl⟩); exacts [.inl rfl, .inr ⟨h, k, rfl⟩]
  sinkWrite := by rintro s _ b (rfl | ⟨h, k, rfl⟩); exacts [.inl rfl, .inr ⟨h, k, rfl⟩]
  runEncrypt := by rintro s _ pt (rfl | ⟨h, k, rfl⟩) hkv; exacts [.inl rfl, absurd hkv (by simp [h])]
  kv := by rintro s _ (rfl | ⟨h, k, rfl⟩) <;> rfl
  cvv := by rintro s _ (rfl | ⟨h, k, rfl⟩) <;> rfl
  st := by rintro s _ (rfl | ⟨h, k, rfl⟩) <;> rfl
  chainingEn := by rintro s _ (rfl | ⟨h, k, rfl⟩) <;> rfl
  nextAnswer := by rintro s _ (rfl | ⟨h, k, rfl⟩) <;> rfl
  rk := by rintro s _ (rfl | ⟨h, k, rfl⟩) hkv; exacts [rfl, absurd hkv (by simp [h])]
  cv := by rintro s _ (rfl | ⟨h, k, rfl⟩) - <;> rfl
  err := by rintro s _ (rfl | ⟨h, k, rfl⟩) <;> rfl
  cmdIn := by rintro s _ (rfl | ⟨h, k, rfl⟩) <;> rfl
  take := by rintro s _ rest (rfl | ⟨h, k, rfl⟩); exacts [.inl rfl, .inr ⟨h, k, rfl⟩]
  resetRegisters := by rintro s _ (rfl | ⟨h, k, rfl⟩) <;> exact .inl rfl
  abandon := by rintro s _ s' _ w n (rfl | ⟨h, k, rfl⟩) (rfl | ⟨h', k', rfl⟩) - <;> exact .inl rfl

/-- Settles O23: commands read `RK` behind the check of `KV`, and those that set `KV` write all of `RK`. -/
theorem unloadedKeysUnobservable : Obligations.UnloadedKeysUnobservable := by
  intro s k hkv
  obtain ⟨t, u, ht, hu, rfl | ⟨h, k', rfl⟩⟩ := stepCongr_sameButUnloadedRk.step (.inr ⟨hkv, k, rfl⟩)
  · exact ⟨u, u, ht, hu, rfl, fun _ => rfl⟩
  · exact ⟨t, _, ht, hu, rfl, fun htrue => absurd htrue (by simp [h])⟩

/-! ### `CV` while `CVV` is 0 (R10) -/

/-- The states are the same, or no IV is loaded and they differ at most in `CV`. -/
def SameButUnloadedCv (s t : State) : Prop := t = s ∨ s.cvv = false ∧ ∃ v, t = { s with cv := v }

/-- Loading an IV, chaining a block and both resets make the states equal. -/
theorem stepCongr_sameButUnloadedCv : StepCongr SameButUnloadedCv where
  respond := by rintro s _ l (rfl | ⟨h, v, rfl⟩); exacts [.inl rfl, .inr ⟨h, v, rfl⟩]
  raise := by rintro s _ e (rfl | ⟨h, v, rfl⟩); exacts [.inl rfl, .inr ⟨h, v, rfl⟩]
  loadKeys := by rintro s _ k (rfl | ⟨h, v, rfl⟩); exacts [.inl rfl, .inr ⟨h, v, rfl⟩]
  setSt := by rintro s _ b (rfl | ⟨h, v, rfl⟩); exacts [.inl rfl, .inr ⟨h, v, rfl⟩]
  loadIv := by rintro s _ iv (rfl | ⟨h, v, rfl⟩) <;> exact .inl rfl
  setCv := by rintro s _ c (rfl | ⟨h, v, rfl⟩) <;> exact .inl rfl
  sinkWrite := by rintro s _ b (rfl | ⟨h, v, rfl⟩); exacts [.inl rfl, .inr ⟨h, v, rfl⟩]
  runEncrypt := by
    rintro s _ pt (rfl | ⟨h, v, rfl⟩) -
    exacts [.inl rfl, .inr ⟨by simp [h], v, by simp only [runEncrypt_eq]⟩]
  kv := by rintro s _ (rfl | ⟨h, v, rfl⟩) <;> rfl
  cvv := by rintro s _ (rfl | ⟨h, v, rfl⟩) <;> rfl
  st := by rintro s _ (rfl | ⟨h, v, rfl⟩) <;> rfl
  chainingEn := by rintro s _ (rfl | ⟨h, v, rfl⟩) <;> rfl
  nextAnswer := by rintro s _ (rfl | ⟨h, v, rfl⟩) <;> rfl
  rk := by rintro s _ (rfl | ⟨h, v, rfl⟩) - <;> rfl
  cv := by rintro s _ (rfl | ⟨h, v, rfl⟩) hcvv; exacts [rfl, absurd hcvv (by simp [h])]
  err := by rintro s _ (rfl | ⟨h, v, rfl⟩) <;> rfl
  cmdIn := by rintro s _ (rfl | ⟨h, v, rfl⟩) <;> rfl
  take := by rintro s _ rest (rfl | ⟨h, v, rfl⟩); exacts [.inl rfl, .inr ⟨h, v, rfl⟩]
  resetRegisters := by rintro s _ (rfl | ⟨h, v, rfl⟩) <;> exact .inl rfl
  abandon := by rintro s _ s' _ w n (rfl | ⟨h, v, rfl⟩) (rfl | ⟨h', v', rfl⟩) - <;> exact .inl rfl

/-- Settles O24: the block loop reads `CV` behind the check of `CVV`, and CBCIV, which sets `CVV`, writes `CV`. -/
theorem unloadedIvUnobservable : Obligations.UnloadedIvUnobservable := by
  intro s v hcvv
  obtain ⟨t, u, ht, hu, rfl | ⟨h, v', rfl⟩⟩ := stepCongr_sameButUnloadedCv.step (.inr ⟨hcvv, v, rfl⟩)
  · exact ⟨u, u, ht, hu, rfl, fun _ => rfl⟩
  · exact ⟨t, _, ht, hu, rfl, fun htrue => absurd htrue (by simp [h])⟩

/-! ### The trace (R98) -/

/-- The outputs that are no trace event. -/
def withoutTrace (l : List PortOut) : List PortOut := l.filter fun o => !isTrace o

@[simp] theorem withoutTrace_append (l m : List PortOut) :
    withoutTrace (l ++ m) = withoutTrace l ++ withoutTrace m :=
  List.filter_append l m

@[simp] theorem withoutTrace_traceOut (cfg : Config) (pt : Block) (k : Schedule) :
    withoutTrace (traceOut cfg pt k) = [] := by
  unfold traceOut
  split
  · simp [withoutTrace, isTrace]
  · rfl

/-- With no write to come and no event, nothing more leaves before the reset. -/
theorem outputsBeforeReset_zero_withoutTrace (traces : Nat) (l : List PortOut) :
    outputsBeforeReset 0 traces (withoutTrace l) = [] := by
  induction l with
  | nil => cases traces <;> rfl
  | cons o rest ih =>
    cases o with
    | trace e => exact ih
    | response r => cases traces <;> rfl
    | sinkWrite b a => cases traces <;> rfl

/-- Leaving out the events commutes with the cut of a reset: it counts the writes, and before the last of them it keeps
every event. -/
theorem outputsBeforeReset_withoutTrace (writes traces : Nat) (l : List PortOut) :
    outputsBeforeReset writes traces (withoutTrace l) = withoutTrace (outputsBeforeReset writes traces l) := by
  induction l generalizing writes traces with
  | nil => cases writes <;> cases traces <;> rfl
  | cons o rest ih =>
    cases o with
    | response r => cases writes <;> cases traces <;> rfl
    | sinkWrite b a =>
      cases writes with
      | zero => cases traces <;> rfl
      | succ w => exact congrArg (PortOut.sinkWrite b a :: ·) (ih w traces)
    | trace e =>
      cases writes with
      | zero =>
        have hnone : withoutTrace (outputsBeforeReset 0 traces (.trace e :: rest)) = [] := by
          cases traces with
          | zero => rfl
          | succ n => exact (ih 0 n).symm.trans (outputsBeforeReset_zero_withoutTrace n rest)
        exact (outputsBeforeReset_zero_withoutTrace traces _).trans hnone.symm
      | succ w => exact ih (w + 1) traces

@[simp] theorem countWrites_withoutTrace (l : List PortOut) : countWrites (withoutTrace l) = countWrites l := by
  induction l with
  | nil => rfl
  | cons o rest ih =>
    cases o with
    | response r => exact ih
    | sinkWrite b a => exact congrArg (· + 1) ih
    | trace e => exact ih

/-- The second state is the first without a trace observer. -/
def IsUntraced (s t : State) : Prop := t = untraced s

/-- Leaving out the events of the untraced state's outputs is what `untraced` does to them. -/
theorem untraced_eq (s : State) :
    untraced s = { s with cfg := { s.cfg with traceEn := false }, out := withoutTrace s.out } := rfl

/-- An operation on the untraced state adds the outputs it adds to the traced one, but for the events. -/
theorem stepCongr_isUntraced : StepCongr IsUntraced where
  respond := by
    rintro s _ l rfl
    simp only [IsUntraced, State.respond, untraced_eq, withoutTrace_append]
    rfl
  raise := by
    rintro s _ e rfl
    simp only [IsUntraced, State.raise, untraced_eq, withoutTrace_append]
    rfl
  loadKeys := by rintro s _ k rfl; rfl
  setSt := by rintro s _ b rfl; rfl
  loadIv := by rintro s _ iv rfl; rfl
  setCv := by rintro s _ c rfl; rfl
  sinkWrite := by
    rintro s _ b rfl
    simp only [IsUntraced, State.sinkWrite, untraced_eq, withoutTrace_append]
    rfl
  runEncrypt := by
    rintro s _ pt rfl -
    have hnone (c : Bool) : traceOut ⟨c, false⟩ pt s.rk = [] := rfl
    simp [IsUntraced, runEncrypt_eq, hnone, untraced_eq]
  kv := by rintro s _ rfl; rfl
  cvv := by rintro s _ rfl; rfl
  st := by rintro s _ rfl; rfl
  chainingEn := by rintro s _ rfl; rfl
  nextAnswer := by rintro s _ rfl; rfl
  rk := by rintro s _ rfl -; rfl
  cv := by rintro s _ rfl -; rfl
  err := by rintro s _ rfl; rfl
  cmdIn := by rintro s _ rfl; rfl
  take := by rintro s _ rest rfl; rfl
  resetRegisters := by rintro s _ rfl; rfl
  abandon := by
    rintro s _ s' _ writes traces rfl rfl ⟨new, hnew⟩
    simp [IsUntraced, untraced_eq, State.abandon, ← hnew, outputsBeforeReset_withoutTrace]

/-- Settles O25: every operation on the untraced state makes the untraced outputs. -/
theorem traceHasNoEffect : Obligations.TraceHasNoEffect := by
  intro s t ht
  obtain ⟨t', _, ht', hu, rfl⟩ := stepCongr_isUntraced.step (s := s) rfl
  obtain rfl : t' = t := Host.Outcome.next.inj (ht'.symm.trans ht)
  exact hu

end Sys2Proof.Machine
end

section
/-! SUPPORT. The multiplier against the product of polynomials (R47): long division is linear, and one more factor x
before the division is the multiplier's shift after it. Settles the statements on GfMul and on the round constants. -/

namespace Sys2Proof.Machine

open Sys2Proof.Safety

/-! ### Long division -/

/-- One step of the long division: clear the bit of degree `d` with a multiple of 0x11B. -/
def divStep (acc : BitVec 16) (d : Nat) : BitVec 16 :=
  if acc.getLsbD d then acc ^^^ (0x11B#16 <<< (d - 8)) else acc

theorem polyMod_eq (p : BitVec 16) : polyMod p = ([15, 14, 13, 12, 11, 10, 9, 8].foldl divStep p).truncate 8 := rfl

theorem divStep_xor (p q : BitVec 16) (d : Nat) : divStep (p ^^^ q) d = divStep p d ^^^ divStep q d := by
  unfold divStep
  rw [BitVec.getLsbD_xor]
  cases p.getLsbD d <;> cases q.getLsbD d
  case false.false => rfl
  case false.true => exact BitVec.xor_assoc _ _ _
  case true.false => simp; ac_rfl
  case true.true => simp; grind

theorem foldl_divStep_xor (l : List Nat) (p q : BitVec 16) :
    l.foldl divStep (p ^^^ q) = l.foldl divStep p ^^^ l.foldl divStep q := by
  induction l generalizing p q with
  | nil => rfl
  | cons d l ih => rw [List.foldl_cons, divStep_xor, ih]; rfl

/-- The remainder of a sum is the sum of the remainders. -/
theorem polyMod_xor (p q : BitVec 16) : polyMod (p ^^^ q) = polyMod p ^^^ polyMod q := by
  simp only [polyMod_eq, foldl_divStep_xor, BitVec.truncate_eq_setWidth, BitVec.setWidth_xor]

/-- A step that finds its bit clear does nothing. -/
theorem divStep_of_clear {p : BitVec 16} {d : Nat} (h : p.getLsbD d = false) : divStep p d = p := by
  simp [divStep, h]

/-- The division of p·x runs one degree above that of p. -/
theorem divStep_shiftLeft_one (p : BitVec 16) {d : Nat} (h8 : 8 ≤ d) (h15 : d < 15) :
    divStep (p <<< 1) (d + 1) = divStep p d <<< 1 := by
  have hbit : (p <<< 1).getLsbD (d + 1) = p.getLsbD d := by simp; omega
  have hmask : 0x11B#16 <<< (d + 1 - 8) = (0x11B#16 <<< (d - 8)) <<< 1 := by
    rw [← BitVec.shiftLeft_add, Nat.sub_add_comm h8]
  unfold divStep
  rw [hbit, hmask]
  cases p.getLsbD d
  · rfl
  · exact (BitVec.shiftLeft_xor_distrib _ _ _).symm

/-- The last step of the division, cut to a byte, is the multiplier's shift and reduction. -/
theorem truncate_divStep_eight (q : BitVec 16) : (divStep (q <<< 1) 8).truncate 8 = gfShift (q.truncate 8) := by
  have hbit : (q <<< 1).getLsbD 8 = (q.truncate 8).getLsbD 7 := by simp
  have hshift : (q <<< 1).truncate 8 = q.truncate 8 <<< 1 := by
    ext i hi; simp
  unfold divStep gfShift
  rw [hbit, ← hshift]
  cases (q.truncate 8).getLsbD 7
  · rfl
  · exact BitVec.setWidth_xor

/-- The remainder of p·x is the multiplier's shift of the remainder of p. -/
theorem polyMod_shiftLeft_one {p : BitVec 16} (h : p.getLsbD 15 = false) :
    polyMod (p <<< 1) = gfShift (polyMod p) := by
  simp only [polyMod_eq, List.foldl_cons, List.foldl_nil]
  rw [divStep_of_clear h]
  simp only [divStep_shiftLeft_one, Nat.reduceLeDiff, Nat.reduceLT, truncate_divStep_eight]

/-- The operand times x^i, without reduction. -/
def polyShift (a : Byte) (i : Nat) : BitVec 16 := a.zeroExtend 16 <<< i

/-- A byte is its own remainder: every bit the division looks at is clear. -/
theorem polyMod_polyShift_zero (a : Byte) : polyMod (polyShift a 0) = a := by
  simp [polyShift, polyMod_eq, divStep_of_clear]

theorem polyMod_polyShift_succ (a : Byte) {i : Nat} (hi : i < 8) :
    polyMod (polyShift a (i + 1)) = gfShift (polyMod (polyShift a i)) := by
  have htop : (polyShift a i).getLsbD 15 = false := by
    simpa [polyShift] using fun _ => BitVec.getLsbD_of_ge a (15 - i) (by omega)
  rw [← polyMod_shiftLeft_one htop, polyShift, polyShift, BitVec.shiftLeft_add]

/-! ### The product (R47) -/

/-- One term of the product without reduction. -/
def polyMulStep (a b : Byte) (acc : BitVec 16) (i : Nat) : BitVec 16 :=
  if b.getLsbD i then acc ^^^ polyShift a i else acc

theorem polyMul_eq (a b : Byte) : polyMul a b = (List.range' 0 8).foldl (polyMulStep a b) 0 := rfl

theorem gfMul_eq (a b : Byte) : gfMul a b = ((List.range' 0 8).foldl (gfMulStep b) (0x00, a)).1 := rfl

/-- The multiplier's iterations hold the remainders of the accumulated product and of the shifted operand. -/
theorem foldl_gfMulStep_polyMod (a b : Byte) (n : Nat) :
    ∀ (i : Nat) (acc : BitVec 16), i + n ≤ 8 →
      ((List.range' i n).foldl (gfMulStep b) (polyMod acc, polyMod (polyShift a i))).1 =
        polyMod ((List.range' i n).foldl (polyMulStep a b) acc) := by
  induction n with
  | zero => exact fun _ _ _ => rfl
  | succ n ih =>
    intro i acc hi
    have hstep : gfMulStep b (polyMod acc, polyMod (polyShift a i)) i =
        (polyMod (polyMulStep a b acc i), polyMod (polyShift a (i + 1))) := by
      rw [gfMulStep, polyMulStep, polyMod_polyShift_succ a (by omega : i < 8), apply_ite polyMod, polyMod_xor]
    rw [List.range'_succ, List.foldl_cons, List.foldl_cons, hstep]
    exact ih (i + 1) _ (by omega)

/-- Settles O27: the multiplier starts at the remainders of 0 and of its first operand. -/
theorem gfMulIsPolynomialProduct : Obligations.GfMulIsPolynomialProduct := by
  intro a b
  have hfold := foldl_gfMulStep_polyMod a b 8 0 0 le_rfl
  rw [polyMod_polyShift_zero] at hfold
  rw [gfMul_eq, polyMul_eq]
  exact hfold

/-! ### The laws of the product -/

/-- A byte other than 0 divides out. -/
theorem eq_zero_of_gfMul_eq_zero {a b : Byte} (h : gfMul a b = 0) (ha : a ≠ 0) : b = 0 := by
  calc b
      = gfMul (gfMul a (gfInv a)) b := by rw [gfMul_gfInv ha, one_gfMul]
    _ = gfMul (gfMul a b) (gfInv a) := gfMul_right_comm _ _ _
    _ = 0 := by rw [h]; exact zero_gfMul _

/-- Settles O28: the ring laws come from linearity, the absence of zero divisors from the inverses. -/
theorem gfMulLaws : Obligations.GfMulLaws := by
  intro a b c
  refine ⟨gfMul_comm a b, ?distrib, gfMul_one a, gfMul_zero a, zero_gfMul a, gfMul_assoc a b c,
    fun h => ?divisors, (gfShift_eq_gfMul a).symm, gfMul_three a⟩
  case distrib => rw [gfMul_comm, gfAdd, xor_gfMul, gfMul_comm b, gfMul_comm c, gfAdd]
  case divisors =>
    by_cases ha : a = 0
    · exact .inl ha
    · exact .inr (eq_zero_of_gfMul_eq_zero h ha)

/-- Settles O40: the table is written out, and each entry is checked against the one before it. -/
theorem roundConstantsArePowers : Obligations.RoundConstantsArePowers :=
  ⟨rfl, rfl, by decide, rfl⟩

end Sys2Proof.Machine
end

section
/-! SUPPORT. The cipher core (45_cipher.md): one encryption on the external-order image (R88, R95), its trace (R98), its
inverse stage by stage (R96), and the sequence of single commands that computes it (R43). Settles the statements on
Fill and Drain, on Encrypt and on ENCSEQ. -/

namespace Sys2Proof.Machine

open Sys2Proof.Safety

/-! ### Fill and Drain (R22) -/

/-- The transpose exchanges row and column of an index. -/
theorem byteIndex_fill (b : Block) (r c : Fin 4) :
    byteIndex (fill b) (4 * r.val + c.val) = byteIndex b (r.val + 4 * c.val) := by
  rw [Nat.add_comm r.val, byteIndex_eq_byteOf, byteIndex_eq_byteOf, byteOf_fill]

theorem byteIndex_drain (b : Block) (r c : Fin 4) :
    byteIndex (drain b) (r.val + 4 * c.val) = byteIndex b (4 * r.val + c.val) := by
  rw [Nat.add_comm r.val, byteIndex_eq_byteOf, byteIndex_eq_byteOf, byteOf_drain]

/-- Settles O45: Fill and Drain are the same transpose, which is its own inverse. -/
theorem fillDrainLayout : Obligations.FillDrainLayout := fun b =>
  ⟨byteIndex_fill b, byteIndex_drain b, drain_fill b, fill_drain b, rfl, rfl, rfl⟩

/-! ### Encrypt on external-order bytes (R88) -/

/-- The full round of R95 with its stages as R88 gives them on the external-order image. -/
def externalRound (k : Schedule) (e : Block) (r : Fin 11) : Block :=
  let sh := pick (subBytes e) [0, 5, 10, 15, 4, 9, 14, 3, 8, 13, 2, 7, 12, 1, 6, 11]
  blockXor ⟨mixColumn sh.w0, mixColumn sh.w1, mixColumn sh.w2, mixColumn sh.w3⟩ (roundKey k r)

theorem drain_roundFn (k : Schedule) (st : Block) (r : Fin 11) :
    drain (roundFn k st r) = externalRound k (drain st) r := by
  rw [roundFn, drain_addRoundKey, drain_mixColumns, drain_shiftRows, drain_subBytes, externalRound]

/-- The pipeline of R88 from its full rounds; its substitution Word by Word is SubBytes. -/
theorem externalEncrypt_eq (pt : Block) (k : Schedule) :
    externalEncrypt pt k =
      blockXor (pick (subBytes (fullRounds.foldl (externalRound k) (blockXor pt (roundKey k 0))))
        [0, 5, 10, 15, 4, 9, 14, 3, 8, 13, 2, 7, 12, 1, 6, 11]) (roundKey k 10) := rfl

/-- Settles O53: Drain carries every stage over to its external form. -/
theorem encryptOnExternalOrder : Obligations.EncryptOnExternalOrder := by
  intro pt k
  have hrounds (st : Block) :
      drain (fullRounds.foldl (roundFn k) st) = fullRounds.foldl (externalRound k) (drain st) :=
    (List.foldl_hom drain fun st r => (drain_roundFn k st r).symm).symm
  simp only [encrypt, encryptState]
  rw [externalEncrypt_eq, drain_addRoundKey, drain_shiftRows, drain_subBytes, hrounds, drain_addRoundKey, drain_fill]

/-! ### The trace of one encryption (R98) -/

theorem encryptTrace_getLast? (pt : Block) (k : Schedule) :
    (encryptTrace pt k).getLast? = some ⟨10, .ark, fill (encrypt pt k)⟩ := by
  rw [encrypt, fill_drain, encryptState, ← roundsTrace_state]
  exact List.getLast?_append_cons _ _ _

/-- Settles O52: rounds and stages of the events do not depend on the data; the last view is the final state. -/
theorem traceOfOneEncryption : Obligations.TraceOfOneEncryption := fun pt k =>
  ⟨rfl, rfl, rfl, rfl, by rw [encryptTrace_getLast?]; rfl⟩

/-! ### Every stage is injective (R96) -/

theorem addRoundKey_injective (k : Block) : Function.Injective (addRoundKey · k) :=
  (show Function.Involutive (addRoundKey · k) from (addRoundKey_addRoundKey · k)).injective

/-- The forward ROM is undone by the inverse ROM byte by byte. -/
theorem subBytes_injective : Function.Injective subBytes := fun a b h =>
  block_ext fun r c => by
    have hrc := congrArg (byteOf · r c) h
    simp only [byteOf_subBytes] at hrc
    exact Function.LeftInverse.injective isbox_sbox hrc

theorem shiftRows_injective : Function.Injective shiftRows := fun a b h => by
  rw [← shiftRows_four a, h, shiftRows_four b]

theorem xor_cancel_left (t x : Byte) : t ^^^ (t ^^^ x) = x := by
  rw [← BitVec.xor_assoc, BitVec.xor_self, BitVec.zero_xor]

theorem xor_left_comm (x y z : Byte) : x ^^^ (y ^^^ z) = y ^^^ (x ^^^ z) := by
  rw [← BitVec.xor_assoc, BitVec.xor_comm x, BitVec.xor_assoc]

/-- The sum of the four bytes. -/
def wordSum (w : Word) : Byte := w.b0 ^^^ w.b1 ^^^ w.b2 ^^^ w.b3

/-- A column by its sum: every row of the matrix is all ones, and 2 more at its own place and at the next; gfShift is
multiplication by 2. -/
theorem mixColumn_eq (b : Word) :
    mixColumn b =
      ⟨b.b0 ^^^ (wordSum b ^^^ gfShift (b.b0 ^^^ b.b1)), b.b1 ^^^ (wordSum b ^^^ gfShift (b.b1 ^^^ b.b2)),
        b.b2 ^^^ (wordSum b ^^^ gfShift (b.b2 ^^^ b.b3)), b.b3 ^^^ (wordSum b ^^^ gfShift (b.b3 ^^^ b.b0))⟩ := by
  simp only [mixColumn, wordSum, gfMul_three, ← gfShift_eq_gfMul, gfShift_xor, Word.mk.injEq]
  refine ⟨?_, ?_, ?_, ?_⟩ <;> simp only [BitVec.xor_assoc, BitVec.xor_comm, xor_left_comm, xor_cancel_left]

/-- In every column of the matrix the coefficients add up to 1. -/
theorem wordSum_mixColumn (b : Word) : wordSum (mixColumn b) = wordSum b := by
  simp only [mixColumn, wordSum, gfMul_three, ← gfShift_eq_gfMul]
  simp only [BitVec.xor_assoc, xor_left_comm, BitVec.xor_self, xor_cancel_left, BitVec.xor_zero]

/-- In the sum of two neighbours of a mixed column the sum of the column cancels, and the byte between does too. -/
theorem xor_mixed (t x y z : Byte) :
    (x ^^^ (t ^^^ gfShift (x ^^^ y))) ^^^ (y ^^^ (t ^^^ gfShift (y ^^^ z))) = x ^^^ y ^^^ gfShift (x ^^^ z) := by
  simp only [gfShift_xor]
  simp only [BitVec.xor_assoc, xor_left_comm, xor_cancel_left]

/-- Mixed twice, a byte keeps of the first mixing only what the second shifts again. -/
theorem xor_mixed_twice (t x d s : Byte) :
    x ^^^ (t ^^^ gfShift d) ^^^ (t ^^^ gfShift (d ^^^ s)) = x ^^^ gfShift s := by
  simp only [gfShift_xor]
  simp only [BitVec.xor_assoc, xor_left_comm, xor_cancel_left]

/-- MixColumns twice on a column: the matrix squared has the coefficients 5, 0, 4, 0. -/
theorem mixColumn_mixColumn (b : Word) :
    mixColumn (mixColumn b) =
      ⟨b.b0 ^^^ gfShift (gfShift (b.b0 ^^^ b.b2)), b.b1 ^^^ gfShift (gfShift (b.b1 ^^^ b.b3)),
        b.b2 ^^^ gfShift (gfShift (b.b2 ^^^ b.b0)), b.b3 ^^^ gfShift (gfShift (b.b3 ^^^ b.b1))⟩ := by
  rw [mixColumn_eq (mixColumn b), wordSum_mixColumn, mixColumn_eq]
  simp only [xor_mixed, xor_mixed_twice]

/-- The fourth power of the matrix is the identity: the second squaring adds the same term again. -/
theorem mixColumn_four (b : Word) : mixColumn (mixColumn (mixColumn (mixColumn b))) = b := by
  have hpair (x y : Byte) :
      x ^^^ gfShift (gfShift (x ^^^ y)) ^^^ (y ^^^ gfShift (gfShift (y ^^^ x))) = x ^^^ y := by
    rw [BitVec.xor_comm y x]
    simp only [BitVec.xor_assoc, xor_left_comm, BitVec.xor_self, BitVec.xor_zero]
  rw [mixColumn_mixColumn (mixColumn (mixColumn b)), mixColumn_mixColumn b]
  simp only [hpair, BitVec.xor_assoc, BitVec.xor_self, BitVec.xor_zero]

theorem mixColumns_injective : Function.Injective mixColumns := fun a b h => by
  have hcol (c : Fin 4) : columnOf a c = columnOf b c := by
    have hc := congrArg (columnOf · c) h
    simp only [columnOf_mixColumns] at hc
    rw [← mixColumn_four (columnOf a c), hc, mixColumn_four]
  rw [← fill_drain a, drain_eq_columns, hcol, hcol, hcol, hcol, ← drain_eq_columns, fill_drain]

theorem roundFn_injective (k : Schedule) (r : Fin 11) : Function.Injective (roundFn k · r) := fun _ _ h =>
  subBytes_injective (shiftRows_injective (mixColumns_injective (addRoundKey_injective _ h)))

theorem foldl_roundFn_injective (k : Schedule) (rs : List (Fin 11)) : Function.Injective (rs.foldl (roundFn k)) := by
  induction rs with
  | nil => exact Function.injective_id
  | cons r rs ih => exact ih.comp (roundFn_injective k r)

/-- Settles O54: the final round, the full rounds, the first round key and Fill are undone one after the other. -/
theorem encryptInjective : Obligations.EncryptInjective := by
  intro k p q h
  have hstate : encryptState p k = encryptState q k := by
    rw [← fill_drain (encryptState p k), ← fill_drain (encryptState q k)]; exact congrArg fill h
  have hrounds := subBytes_injective (shiftRows_injective (addRoundKey_injective _ hstate))
  have hfill := addRoundKey_injective _ (foldl_roundFn_injective k fullRounds hrounds)
  rw [← drain_fill p, hfill, drain_fill]

/-! ### ENCSEQ (R43) -/

/-- With the schedule `k` loaded the commands apply `f` to `ST`, answer one response each, and do nothing else. -/
def AppliesToSt (k : Schedule) (l : List Instr) (f : Block → Block) : Prop :=
  ∀ s : State, s.kv = true → s.rk = k →
    ∃ new, runAll l s = .next { s with st := f s.st, out := s.out ++ new } ∧ new.length = l.length ∧
      ∀ o ∈ new, isResponse o = true

/-- A command that applies `f` to `ST` and answers without result bytes. -/
theorem appliesToSt_singleton {k : Schedule} {i : Instr} {f : Block → Block}
    (hi : ∀ s : State, s.kv = true → s.rk = k → exec i s = .next ((s.setSt (f s.st)).respond [])) :
    AppliesToSt k [i] f := fun s hkv hrk =>
  ⟨[.response [0x00]], by simp only [runAll, hi s hkv hrk]; rfl, rfl, by simp [isResponse]⟩

theorem runAll_append {l m : List Instr} {s t : State} (h : runAll l s = .next t) :
    runAll (l ++ m) s = runAll m t := by
  induction l generalizing s with
  | nil => cases h; rfl
  | cons i l ih =>
    simp only [runAll, List.cons_append] at h ⊢
    cases hi : exec i s with
    | next u => rw [hi] at h; exact ih h
    | fault r => rw [hi] at h; cases h
    | refused r => rw [hi] at h; cases h

theorem AppliesToSt.append {k : Schedule} {l m : List Instr} {f g : Block → Block} (hl : AppliesToSt k l f)
    (hm : AppliesToSt k m g) : AppliesToSt k (l ++ m) (g ∘ f) := by
  intro s hkv hrk
  obtain ⟨a, hrun, ha, hresp⟩ := hl s hkv hrk
  obtain ⟨b, hrun', hb, hresp'⟩ := hm { s with st := f s.st, out := s.out ++ a } hkv hrk
  refine ⟨a ++ b, ?_, by simp [ha, hb], fun o ho => (List.mem_append.mp ho).elim (hresp o) (hresp' o)⟩
  rw [runAll_append hrun, hrun', List.append_assoc]
  rfl

theorem appliesToSt_stld (k : Schedule) (blk : Block) : AppliesToSt k [.stld blk] fun _ => fill blk :=
  appliesToSt_singleton fun _ _ _ => rfl

theorem appliesToSt_subb (k : Schedule) : AppliesToSt k [.subb] subBytes := appliesToSt_singleton fun _ _ _ => rfl

theorem appliesToSt_shrow (k : Schedule) : AppliesToSt k [.shrow] shiftRows := appliesToSt_singleton fun _ _ _ => rfl

theorem appliesToSt_mixc (k : Schedule) : AppliesToSt k [.mixc] mixColumns := appliesToSt_singleton fun _ _ _ => rfl

/-- ARK on a valid index adds the round key (R91). -/
theorem appliesToSt_ark (k : Schedule) {r : Byte} {n : Fin 11} (hr : r.toNat = n.val) :
    AppliesToSt k [.ark r] (addRoundKey · (roundKey k n)) :=
  appliesToSt_singleton fun s hkv hrk => hrk ▸ exec_ark_of_key s n hr hkv

/-- The four commands of a round compute the round. -/
theorem appliesToSt_encSeqRound (k : Schedule) {r : Byte} {n : Fin 11} (hr : r.toNat = n.val) :
    AppliesToSt k (encSeqRound r) (roundFn k · n) :=
  (appliesToSt_subb k).append ((appliesToSt_shrow k).append ((appliesToSt_mixc k).append (appliesToSt_ark k hr)))

/-- The rounds' commands compute the rounds. -/
theorem appliesToSt_rounds (k : Schedule) (rs : List (Fin 11)) :
    AppliesToSt k (rs.flatMap fun n => encSeqRound (BitVec.ofNat 8 n.val)) (rs.foldl (roundFn k)) := by
  induction rs with
  | nil => exact fun s _ _ => ⟨[], by simp [runAll], rfl, by simp⟩
  | cons n rs ih =>
    have hn : (BitVec.ofNat 8 n.val).toNat = n.val := by simp; omega
    exact (appliesToSt_encSeqRound k hn).append ih

/-- The commands of ENCSEQ before the last, STRD. -/
def encSeqInit (blk : Block) : List Instr :=
  [.stld blk, .ark 0] ++ (fullRounds.flatMap fun n => encSeqRound (BitVec.ofNat 8 n.val)) ++ [.subb, .shrow, .ark 10]

theorem encSeq_eq (blk : Block) : encSeq blk = encSeqInit blk ++ [.strd] := rfl

theorem appliesToSt_encSeqInit (k : Schedule) (blk : Block) :
    AppliesToSt k (encSeqInit blk) fun _ => encryptState blk k :=
  have hfirst := (appliesToSt_stld k blk).append (appliesToSt_ark k (r := 0) (n := 0) rfl)
  have hlast := (appliesToSt_subb k).append ((appliesToSt_shrow k).append (appliesToSt_ark k (r := 10) (n := 10) rfl))
  (hfirst.append (appliesToSt_rounds k fullRounds)).append hlast

/-- Settles O55: the commands before STRD compute the final state in `ST`, and STRD answers what ENC does. -/
theorem encseqEqualsEnc : Obligations.EncseqEqualsEnc := by
  intro blk s hkv
  obtain ⟨new, hinit, hlen, hnew⟩ := appliesToSt_encSeqInit s.rk blk s hkv rfl
  have hrun : runAll (encSeq blk) s = .next
      (answered { s with st := encryptState blk s.rk, out := s.out ++ new } (encrypt blk s.rk).bytes) := by
    rw [encSeq_eq, runAll_append hinit]
    rfl
  have hst : encryptState blk s.rk = fill (encrypt blk s.rk) := (fill_drain _).symm
  refine ⟨rfl, _, _, new ++ [.response (0x00 :: (encrypt blk s.rk).bytes)], hrun, exec_enc_of_key blk s hkv, hst,
    ?lastAnswer, ?outputs, ?length, ?responses, rfl⟩
  case lastAnswer => simp [answered]
  case outputs => exact List.append_assoc s.out new _
  case length => rw [List.length_append, hlen]; rfl
  case responses =>
    intro o ho
    rcases List.mem_append.mp ho with h | h
    · exact hnew o h
    · rw [List.mem_singleton.mp h]; rfl

end Sys2Proof.Machine
end

section
/-! SUPPORT. The block loop of CBCENC (R104, R105, R109): its turns while the sink accepts, over all plaintext blocks,
and its last turn, which is the last block's or the one whose write the sink rejects (R117). Settles the statements on
CBCENC. -/

namespace Sys2Proof.Machine

open Sys2Proof.Safety

/-! ### The chain of ciphertext blocks (R104, R105) -/

/-- The chaining value after these blocks: the last ciphertext block, if there is one (R105). -/
def chainedCv (k : Schedule) (cv : Block) (ps : List Block) : Block := (cbcChain k cv ps).getLastD cv

@[simp] theorem chainedCv_nil (k : Schedule) (cv : Block) : chainedCv k cv [] = cv := rfl

@[simp] theorem chainedCv_cons (k : Schedule) (cv p : Block) (ps : List Block) :
    chainedCv k cv (p :: ps) = chainedCv k (encrypt (blockXor cv p) k) ps :=
  List.getLastD_cons

@[simp] theorem cbcChain_length (k : Schedule) (cv : Block) (ps : List Block) :
    (cbcChain k cv ps).length = ps.length := by
  induction ps generalizing cv with
  | nil => rfl
  | cons p ps ih => exact congrArg (· + 1) (ih _)

theorem cbcChain_append (k : Schedule) (cv : Block) (ps qs : List Block) :
    cbcChain k cv (ps ++ qs) = cbcChain k cv ps ++ cbcChain k (chainedCv k cv ps) qs := by
  induction ps generalizing cv with
  | nil => rfl
  | cons p ps ih => rw [chainedCv_cons]; exact congrArg (_ :: ·) (ih _)

theorem cbcChain_take (k : Schedule) (cv : Block) (ps : List Block) (j : Nat) :
    cbcChain k cv (ps.take j) = (cbcChain k cv ps).take j := by
  induction ps generalizing cv j with
  | nil => simp [cbcChain]
  | cons p ps ih =>
    cases j with
    | zero => rfl
    | succ j => exact congrArg (_ :: ·) (ih _ j)

/-- The chain has a last block when there is a block, and it is the chaining value. -/
theorem cbcChain_getLast? (k : Schedule) (cv : Block) {ps : List Block} (h : ps ≠ []) :
    (cbcChain k cv ps).getLast? = some (chainedCv k cv ps) := by
  cases ps with
  | nil => exact absurd rfl h
  | cons p ps => simp [chainedCv, cbcChain, List.getLast?_cons, List.getLastD_eq_getLast?]

/-- The chaining value before block `j` is ciphertext block `j - 1`, or the first one before block 0 (R105). -/
theorem chainedCv_take (k : Schedule) (cv : Block) {ps : List Block} {j : Nat} (hj : j ≤ ps.length) :
    chainedCv k cv (ps.take j) = if j = 0 then cv else (cbcChain k cv ps).getD (j - 1) Block.zero := by
  cases j with
  | zero => rfl
  | succ j =>
    have hlen : j < (cbcChain k cv ps).length := by rw [cbcChain_length]; omega
    rw [chainedCv, cbcChain_take, List.getLastD_eq_getLast?, List.getLast?_take]
    simp [List.getElem?_eq_getElem hlen]

/-- Ciphertext block `j` is block `j` encrypted on the chaining value before it (R104). -/
theorem cbcChain_getD (k : Schedule) (cv : Block) {ps : List Block} {j : Nat} (hj : j < ps.length) :
    (cbcChain k cv ps).getD j Block.zero = encrypt (blockXor (chainedCv k cv (ps.take j)) ps[j]) k := by
  have hsplit : ps = ps.take j ++ ps[j] :: ps.drop (j + 1) := by simp
  have hlen : (cbcChain k cv (ps.take j)).length = j := by simp [hj.le]
  conv_lhs => rw [hsplit, cbcChain_append]
  simp [cbcChain, hlen]

/-! ### What the accepted turns deliver (R107) -/

theorem delivered_append (l m : List PortOut) : delivered (l ++ m) = delivered l ++ delivered m := by
  fun_induction delivered l <;> simp_all [delivered]

/-- A trace event is no delivery. -/
theorem delivered_traceOut (cfg : Config) (pt : Block) (k : Schedule) : delivered (traceOut cfg pt k) = [] := by
  have hmap (l : List TraceEvent) : delivered (l.map .trace) = [] := by
    induction l with
    | nil => rfl
    | cons e l ih => exact ih
  unfold traceOut
  split
  · exact hmap _
  · rfl

/-- While the sink accepts, the ciphertext blocks are delivered in order. -/
theorem delivered_acceptedOut (cfg : Config) (k : Schedule) (cv : Block) (ps : List Block) :
    delivered (acceptedOut cfg k cv ps) = cbcChain k cv ps := by
  induction ps generalizing cv with
  | nil => rfl
  | cons p ps ih =>
    simp only [acceptedOut, delivered_append, delivered_traceOut, ih]
    rfl

/-! ### The turns of the loop (R109) -/

/-- The state after one block whose write the sink accepts. -/
def acceptedTurn (s : State) (p : Block) : State :=
  { s with
    st := fill (encrypt (blockXor s.cv p) s.rk), rnd := 0, cv := encrypt (blockXor s.cv p) s.rk,
    sinkCount := s.sinkCount + 1,
    out := s.out ++ traceOut s.cfg (blockXor s.cv p) s.rk ++ [.sinkWrite (encrypt (blockXor s.cv p) s.rk) .accept] }

/-- The loop goes on from the accepted blocks' turns. -/
theorem cbcLoop_append {ps : List Block} {s : State} (qs : List Block)
    (h : ∀ m < ps.length, s.answerAt (s.sinkCount + m) = .accept) :
    cbcLoop (ps ++ qs) s = cbcLoop qs (ps.foldl acceptedTurn s) := by
  induction ps generalizing s with
  | nil => rfl
  | cons p ps ih =>
    have hnext : s.nextAnswer = .accept := h 0 (Nat.succ_pos _)
    have hrest (m : Nat) (hm : m < ps.length) :
        (acceptedTurn s p).answerAt ((acceptedTurn s p).sinkCount + m) = .accept := by
      have hm' := h (m + 1) (Nat.succ_lt_succ hm)
      rwa [Nat.add_comm m, ← Nat.add_assoc] at hm'
    rw [List.cons_append, cbcLoop_accept hnext]
    exact ih hrest

/-- What the turns of the accepted blocks have done: `ST` and `RND` are those of the last of them. -/
theorem foldl_acceptedTurn (ps : List Block) (s : State) :
    ps.foldl acceptedTurn s = { s with
      st := if ps = [] then s.st else fill (chainedCv s.rk s.cv ps), rnd := if ps = [] then s.rnd else 0,
      cv := chainedCv s.rk s.cv ps, sinkCount := s.sinkCount + ps.length,
      out := s.out ++ acceptedOut s.cfg s.rk s.cv ps } := by
  induction ps generalizing s with
  | nil => simp [acceptedOut]
  | cons p ps ih =>
    rw [List.foldl_cons, ih (acceptedTurn s p)]
    cases ps <;> simp [acceptedTurn, acceptedOut, Nat.add_assoc, Nat.add_comm]

/-- The loop over blocks whose writes are all accepted ends with the response (R109). -/
theorem cbcLoop_of_accept {ps : List Block} {s : State} (hps : ps ≠ [])
    (h : ∀ m < ps.length, s.answerAt (s.sinkCount + m) = .accept) :
    cbcLoop ps s = { s with
      st := fill (chainedCv s.rk s.cv ps), rnd := 0, cv := chainedCv s.rk s.cv ps,
      sinkCount := s.sinkCount + ps.length,
      out := s.out ++ acceptedOut s.cfg s.rk s.cv ps ++ [.response [0x00]] } := by
  have hloop := cbcLoop_append [] h
  rw [List.append_nil, foldl_acceptedTurn] at hloop
  simpa [hps, cbcLoop, respond_eq_answered, answered] using hloop

/-- The loop ends at the first block whose write is rejected, with the chaining value before it (R117). -/
theorem cbcLoop_of_reject {ps qs : List Block} {p : Block} {s : State}
    (h : ∀ m < ps.length, s.answerAt (s.sinkCount + m) = .accept)
    (hj : s.answerAt (s.sinkCount + ps.length) = .reject) :
    cbcLoop (ps ++ p :: qs) s = { s with
      st := fill (encrypt (blockXor (chainedCv s.rk s.cv ps) p) s.rk), rnd := 0, cv := chainedCv s.rk s.cv ps,
      err := s.err ||| 0x04, sinkCount := s.sinkCount + ps.length + 1,
      out := s.out ++ acceptedOut s.cfg s.rk s.cv ps ++ traceOut s.cfg (blockXor (chainedCv s.rk s.cv ps) p) s.rk ++
        [.sinkWrite (encrypt (blockXor (chainedCv s.rk s.cv ps) p) s.rk) .reject, .response [0x03]] } := by
  rw [cbcLoop_append _ h, foldl_acceptedTurn]
  exact cbcLoop_reject hj

/-! ### CBCENC -/

/-- Without the chaining layer CBCENC's opcode is reserved (R37, R100). -/
theorem reserved_cbcenc {cfg : Config} (h : cfg.chainingEn = false) : Reserved cfg 0x71 := by
  simp [Reserved, h]

theorem plaintextBlocks_ne_nil (data : List Byte) : plaintextBlocks data ≠ [] := by
  rw [← List.length_pos_iff, plaintextBlocks_length]
  exact Nat.succ_pos _

/-- Settles O58: the errors stand before the loop, and the loop's turns are all accepted. -/
theorem streamEncryptCommand : Obligations.StreamEncryptCommand := by
  refine fun s data => ⟨fun hc => runPacket_of_reserved data (reserved_cbcenc hc), decode_cbcenc data,
    exec_cbcenc_of_no_key data, exec_cbcenc_of_no_iv data, fun hc hkv hcvv hacc => ?_⟩
  have hlen : (plaintextBlocks data).length = data.length / 16 + 1 := plaintextBlocks_length data
  refine ⟨_, cbcChain_getLast? s.rk s.cv (plaintextBlocks_ne_nil data), (cbcChain_length _ _ _).trans hlen,
    delivered_acceptedOut _ _ _ _, ?_⟩
  rw [← hlen] at hacc ⊢
  rw [exec_cbcenc_of_key_of_iv data hc hkv hcvv, cbcLoop_of_accept (plaintextBlocks_ne_nil data) hacc]

/-- Settles O59: the turns before block `j` are accepted, and block `j`'s ends the loop. -/
theorem sinkFailureLeaves : Obligations.SinkFailureLeaves := by
  intro s data j blocks chain cv rejected hc hkv hcvv hj hacc hrej
  have hj' : j < blocks.length := (plaintextBlocks_length data).symm ▸ hj
  have hlen : (blocks.take j).length = j := List.length_take_of_le hj'.le
  have hcv : cv = chainedCv s.rk s.cv (blocks.take j) := (chainedCv_take s.rk s.cv hj'.le).symm
  have hrejected : rejected = encrypt (blockXor cv blocks[j]) s.rk := hcv ▸ cbcChain_getD s.rk s.cv hj'
  have hblock : blocks.getD j Block.zero = blocks[j] := List.getD_eq_getElem _ _ hj'
  have hsplit : blocks = blocks.take j ++ blocks[j] :: blocks.drop (j + 1) := by simp
  refine ⟨(delivered_acceptedOut _ _ _ _).trans (cbcChain_take _ _ _ _), ?_⟩
  have hloop := cbcLoop_of_reject (ps := blocks.take j) (p := blocks[j]) (qs := blocks.drop (j + 1)) (s := s)
    (hlen.symm ▸ hacc) (hlen.symm ▸ hrej)
  rw [← hsplit, hlen, ← hcv] at hloop
  rw [hrejected, hblock, exec_cbcenc_of_key_of_iv data hc hkv hcvv]
  exact congrArg Host.Outcome.next hloop

end Sys2Proof.Machine
end

section
/-! SUPPORT. The system command STAT (R110): its view STATUS as a number (R14). Settles the statement on STAT. -/

namespace Sys2Proof.Machine

open Sys2Proof.Safety

/-- STATUS as a number: `KV` in bit 0, `CVV` in bit 1 where the chaining layer exists (R14). -/
theorem statusView_eq (s : State) :
    statusView s = BitVec.ofNat 8 (s.kv.toNat + 2 * (s.cvv && s.cfg.chainingEn).toNat) := by
  unfold statusView
  cases s.kv <;> cases (s.cvv && s.cfg.chainingEn) <;> rfl

/-- Settles O60: the command has its row of the opcode map and answers without a check. -/
theorem statusCommand : Obligations.StatusCommand := by
  refine ⟨onlyLength_of_fixedLengths (by decide) (by decide), fun s => ⟨rfl, ?_⟩⟩
  rw [← statusView_eq]
  rfl

end Sys2Proof.Machine
end
